-- ==== Sys2Proof/Word.lean ====
section
/-! DEFINITION. The word types of the machine and their plainest arithmetic (spec/00_scope.md R3 to R5). -/

namespace Sys2Proof

/-- A byte of memory. -/
abbrev Byte := BitVec 8
/-- A 32-bit word: an instruction, a lane of a vector register, MODE. -/
abbrev W32 := BitVec 32
/-- A 64-bit word: a scalar register, a system register. -/
abbrev W64 := BitVec 64
/-- A 48-bit virtual address (R46). -/
abbrev Addr := BitVec 48

/-- `name[hi:lo]` of a number, read as an unsigned integer (R4). -/
def bitsOf (x hi lo : Nat) : Nat := (x >>> lo) % 2 ^ (hi + 1 - lo)

end Sys2Proof
end

