-- ==== Sys2Proof/Syntax.lean ====
section
/-! DEFINITION. The syntax of the machine's steps: one constructor of `Instr` per row of
spec/opcode_table.json. The 183 encoded rows carry the fields of their format (spec/02 R57) exactly as the word
holds them, register fields an instruction ignores (R56) among them, so that an instruction and its word are the
same data. The other 81 rows are the device's events (spec/95): they carry what the event brings with it. -/

namespace Sys2Proof

/-- S3: two scalar sources to a scalar destination (R57, R58); sv is the schedule-control version. -/
structure S3 where
  sv : BitVec 2
  d : BitVec 7
  a : BitVec 7
  b : BitVec 7
  deriving DecidableEq, Repr

/-- SI: a scalar source and a signed 10-bit immediate (R57, R58); sv is the schedule-control version. -/
structure SI where
  sv : BitVec 2
  d : BitVec 7
  a : BitVec 7
  i : BitVec 10
  deriving DecidableEq, Repr

/-- SI of SSHLI and SSHRI: a shift amount in IMM10[5:0] (R57, R58); sv is the schedule-control version. -/
structure SH where
  sv : BitVec 2
  d : BitVec 7
  a : BitVec 7
  i : BitVec 6
  deriving DecidableEq, Repr

/-- LS and LV: a 17-bit immediate (R57, R58); sv is the schedule-control version. -/
structure LI where
  sv : BitVec 2
  d : BitVec 7
  i : BitVec 17
  deriving DecidableEq, Repr

/-- CS and CV: two sources and a 3-bit condition (R57, R58); sv is the schedule-control version. -/
structure CS where
  sv : BitVec 2
  d : BitVec 7
  a : BitVec 7
  b : BitVec 7
  c : BitVec 3
  deriving DecidableEq, Repr

/-- FS and FV: one source; l is LRA, bit [3] (R57, R58); sv is the schedule-control version. -/
structure FS where
  sv : BitVec 2
  d : BitVec 7
  a : BitVec 7
  l : Bool
  deriving DecidableEq, Repr

/-- BX: a short scalar and an 18-bit word offset (R57, R58); sv is the schedule-control version. -/
structure BX where
  sv : BitVec 2
  s : BitVec 6
  o : BitVec 18
  deriving DecidableEq, Repr

/-- EN: three short scalars and AHD (R57, R58); sv is the schedule-control version. -/
structure EN where
  sv : BitVec 2
  a : BitVec 6
  b : BitVec 6
  c : BitVec 6
  h : BitVec 4
  deriving DecidableEq, Repr

/-- V3: two vector sources; l is LRA, m is LRB (R57, R58); sv is the schedule-control version. -/
structure V3 where
  sv : BitVec 2
  d : BitVec 7
  a : BitVec 7
  b : BitVec 7
  l : Bool
  m : Bool
  deriving DecidableEq, Repr

/-- FL: one vector source, LRA and AHD (R57, R58); sv is the schedule-control version. -/
structure FL where
  sv : BitVec 2
  d : BitVec 7
  a : BitVec 7
  l : Bool
  h : BitVec 4
  deriving DecidableEq, Repr

/-- FV of VCVT: t is FN[3:0], s is FN[4] (R57, R58); sv is the schedule-control version. -/
structure CVT where
  sv : BitVec 2
  d : BitVec 7
  a : BitVec 7
  s : Bool
  t : BitVec 4
  l : Bool
  deriving DecidableEq, Repr

/-- VI: a vector source, a signed 9-bit immediate and LRA (R57, R58); sv is the schedule-control version. -/
structure VI where
  sv : BitVec 2
  d : BitVec 7
  a : BitVec 7
  i : BitVec 9
  l : Bool
  deriving DecidableEq, Repr

/-- CV of VQNT and VDQNT: f is the narrow format C[1:0] (R57, R58); sv is the schedule-control version. -/
structure QN where
  sv : BitVec 2
  d : BitVec 7
  a : BitVec 7
  b : BitVec 7
  f : BitVec 2
  deriving DecidableEq, Repr

/-- MV: data D, vector offset A, base S, AHD (R57, R58); sv is the schedule-control version. -/
structure MV where
  sv : BitVec 2
  d : BitVec 7
  a : BitVec 7
  s : BitVec 6
  h : BitVec 4
  deriving DecidableEq, Repr

/-- MS of SLD and SST: data D[5:0], offset A, base S, AHD (R57, R58); sv is the schedule-control version. -/
structure MS where
  sv : BitVec 2
  d : BitVec 6
  a : BitVec 7
  s : BitVec 6
  h : BitVec 4
  deriving DecidableEq, Repr

/-- MS of CACHE: offset A, base S, AHD (R57, R58); sv is the schedule-control version. -/
structure CA where
  sv : BitVec 2
  a : BitVec 7
  s : BitVec 6
  h : BitVec 4
  deriving DecidableEq, Repr

/-- AM: data D, base S, q is ACQ, r is REL, AHD (R57, R58); sv is the schedule-control version. -/
structure AM where
  sv : BitVec 2
  d : BitVec 6
  s : BitVec 6
  q : Bool
  r : Bool
  h : BitVec 4
  deriving DecidableEq, Repr

/-- MV of RED: data D, t is A[0], base S, AHD (R57, R58); sv is the schedule-control version. -/
structure RD where
  sv : BitVec 2
  d : BitVec 7
  t : Bool
  s : BitVec 6
  h : BitVec 4
  deriving DecidableEq, Repr

/-- SY without an operand (R57, R58); sv is the schedule-control version. -/
structure SY where
  sv : BitVec 2
  deriving DecidableEq, Repr

/-- SY with a 16-bit immediate (R57, R58); sv is the schedule-control version. -/
structure SYI where
  sv : BitVec 2
  i : BitVec 16
  deriving DecidableEq, Repr

/-- SY with one short scalar (R57, R58); sv is the schedule-control version. -/
structure SYS where
  sv : BitVec 2
  s : BitVec 6
  deriving DecidableEq, Repr

/-- SY of SYSR and SYSW: a short scalar and a register number (R57, R58); sv is the schedule-control version. -/
structure SYR where
  sv : BitVec 2
  s : BitVec 6
  n : BitVec 10
  deriving DecidableEq, Repr

/-- SY of FENCE: kind and scope (R57, R58); sv is the schedule-control version. -/
structure SYF where
  sv : BitVec 2
  k : BitVec 2
  o : BitVec 3
  deriving DecidableEq, Repr

/-- SY of WAITC and RDC: a short scalar and a path (R57, R58); sv is the schedule-control version. -/
structure SYC where
  sv : BitVec 2
  s : BitVec 6
  p : BitVec 3
  deriving DecidableEq, Repr

/-- SY of the barriers: the id (R57, R58); sv is the schedule-control version. -/
structure SYB where
  sv : BitVec 2
  i : BitVec 5
  deriving DecidableEq, Repr

/-- SY of BARTEST: destination and id (R57, R58); sv is the schedule-control version. -/
structure SYT where
  sv : BitVec 2
  s : BitVec 6
  i : BitVec 5
  deriving DecidableEq, Repr

/-- SY of TXABORT: the user code (R57, R58); sv is the schedule-control version. -/
structure SYA where
  sv : BitVec 2
  i : BitVec 8
  deriving DecidableEq, Repr

/-- SY of RMAP: destination and vector register (R57, R58); sv is the schedule-control version. -/
structure SYM where
  sv : BitVec 2
  s : BitVec 6
  a : BitVec 7
  deriving DecidableEq, Repr

/-- Why a gang is pre-empted: SAVEINFO.REASON (R253). -/
inductive PreemptReason where
  | scheduler | migration | breaker | host
  deriving DecidableEq, Repr

/-- A group sum that an array claims wrongly: for K group `q`, row `i` and column `j` the claimed N' differs from
the exact N by `e` (R292). -/
structure SumError where
  q : Nat
  i : Nat
  j : Nat
  e : Int
  deriving DecidableEq, Repr

/-- The storage in which an ECC error appears (R401). -/
inductive ErrorSite where
  /-- a register row of a team -/
  | row (team : Nat) (reg : BitVec 7) (word : Nat)
  /-- a tile half of a gang's accumulator region: core of the cluster and tile -/
  | tile (gang : Nat) (core : BitVec 2) (tile : Nat)
  /-- a line in L2 -/
  | cacheLine (tag : BitVec 16) (granule : Nat)
  /-- a line in a core's cache region, or in its checker cache -/
  | coreLine (core : BitVec 8) (checker : Bool) (tag : BitVec 16) (granule : Nat)
  /-- a scratchpad granule of a gang's group -/
  | scratch (gang : Nat) (group : Nat) (granule : Nat)
  /-- a granule of vault DRAM or second-tier memory, by local physical address -/
  | dram (granule : Nat)
  /-- a directory or filter entry of a die -/
  | directory (die : BitVec 2)
  /-- a TLB entry -/
  | tlb (index : Nat)
  deriving DecidableEq, Repr

/-- Work that draws current under a reservation (R396). -/
inductive CurrentWork where
  /-- a matrix pass, by its operation -/
  | pass (op : Nat)
  /-- a copy burst -/
  | copy
  /-- a vector burst of a core of the cluster -/
  | vector (core : BitVec 2)
  deriving DecidableEq, Repr

/-- A firmware image met at boot (R437): its stage id and security version, the image, the public key that it comes with
and its signature. -/
structure StageImage where
  stage : W64
  version : W64
  image : List Byte
  key : List Byte
  signature : List Byte
  deriving DecidableEq, Repr

/-- What the host asks of a window (R429, R431): a read of some bytes, or a write. -/
inductive HostOp where
  | read (n : Nat)
  | write (bytes : List Byte)
  deriving DecidableEq, Repr

/-- One sample of a power point (R439), or none where the point was not sampled. -/
structure Sample where
  point : BitVec 6
  vmv : BitVec 32
  ima : BitVec 32
  temp : BitVec 16
  eff : BitVec 16
  pmw : BitVec 32
  flags : BitVec 3
  deriving DecidableEq, Repr

/-- What a peer's transaction asks of this module as the home of its line (R446, R457). -/
inductive PeerOp where
  | load (plane : BitVec 6)
  | store (bytes : List (Nat × Byte))
  | amo (op : BitVec 3) (operand other : W64)
  /-- a reduction's addends by their place in the line, in the form of RED (R167) -/
  | update (form : BitVec 2) (addends : List (Nat × W32))
  deriving DecidableEq, Repr

/-- What the home of a peer line answers (R444, R445): accepted with the data it returns, the marks of its four granules
(R402) and the classes that an update raised there (R289), or failed there. -/
inductive HomeReply where
  | accepted (data : List Byte) (poison : BitVec 4 := 0) (flags : BitVec 5 := 0)
  | failed
  deriving DecidableEq, Repr

/-- A transaction that reaches its destination L2 (R435): the `n`-th outstanding one of this module at its
destination, one that module `src` sent here, stamped with its interval (R456), or the next one between two dies that die
`src` sends, 4 for the I/O die. -/
inductive Transit where
  | outgoing (n : Nat) (reply : HomeReply)
  | incoming (src : BitVec 12) (stamp : BitVec 32) (va : Nat) (op : PeerOp)
  | within (src : Nat)
  deriving DecidableEq, Repr

/-- The CRC-32C checks of a transaction (R435): good, good after one retransmission, or bad twice. -/
inductive CrcResult where
  | good | retried | failed
  deriving DecidableEq, Repr

/-- The machine's steps: one constructor per row of spec/opcode_table.json: the encoded rows in its
order, then RESERVED_ENCODING and the device's events. -/
inductive Instr where
  /-- SADD (R110). -/
  | sadd (f : S3)
  /-- SSUB (R110). -/
  | ssub (f : S3)
  /-- SMUL (R110). -/
  | smul (f : S3)
  /-- SMULH (R110). -/
  | smulh (f : S3)
  /-- SAND (R110). -/
  | sand (f : S3)
  /-- SOR (R110). -/
  | sor (f : S3)
  /-- SXOR (R110). -/
  | sxor (f : S3)
  /-- SANDN (R110). -/
  | sandn (f : S3)
  /-- SSHL (R110). -/
  | sshl (f : S3)
  /-- SSHR (R110). -/
  | sshr (f : S3)
  /-- SSAR (R110). -/
  | ssar (f : S3)
  /-- SROT (R110). -/
  | srot (f : S3)
  /-- SMIN (R110). -/
  | smin (f : S3)
  /-- SMAX (R110). -/
  | smax (f : S3)
  /-- SMINU (R110). -/
  | sminu (f : S3)
  /-- SMAXU (R110). -/
  | smaxu (f : S3)
  /-- SLEA4 (R110). -/
  | slea4 (f : S3)
  /-- SLEA8 (R110). -/
  | slea8 (f : S3)
  /-- SMULHU (R110). -/
  | smulhu (f : S3)
  /-- SADDI (R111). -/
  | saddi (f : SI)
  /-- SANDI (R111). -/
  | sandi (f : SI)
  /-- SSHLI (R111). -/
  | sshli (f : SH)
  /-- SSHRI (R111). -/
  | sshri (f : SH)
  /-- SMOVI (R112). -/
  | smovi (f : LI)
  /-- SSETH (R112). -/
  | sseth (f : LI)
  /-- SSETT (R112). -/
  | ssett (f : LI)
  /-- SCMP (R113). -/
  | scmp (f : CS)
  /-- SMOV (R114). -/
  | smov (f : FS)
  /-- SNOT (R114). -/
  | snot (f : FS)
  /-- SNEG (R114). -/
  | sneg (f : FS)
  /-- SPOPC (R114). -/
  | spopc (f : FS)
  /-- SCLZ (R114). -/
  | sclz (f : FS)
  /-- SCTZ (R114). -/
  | sctz (f : FS)
  /-- SBREV (R114). -/
  | sbrev (f : FS)
  /-- SSEXT32 (R114). -/
  | ssext32 (f : FS)
  /-- SZEXT32 (R114). -/
  | szext32 (f : FS)
  /-- SABS (R114). -/
  | sabs (f : FS)
  /-- MAND (R115). -/
  | mand (f : S3)
  /-- MANDN (R115). -/
  | mandn (f : S3)
  /-- MOR (R115). -/
  | mor (f : S3)
  /-- MXOR (R115). -/
  | mxor (f : S3)
  /-- MNOT (R116). -/
  | mnot (f : FS)
  /-- MPOPC (R116). -/
  | mpopc (f : FS)
  /-- MFFS (R116). -/
  | mffs (f : FS)
  /-- MSET (R116). -/
  | mset (f : FS)
  /-- MCLR (R116). -/
  | mclr (f : FS)
  /-- MCPY (R116). -/
  | mcpy (f : FS)
  /-- BR (R117). -/
  | br (f : BX)
  /-- BRZ (R117). -/
  | brz (f : BX)
  /-- BRNZ (R117). -/
  | brnz (f : BX)
  /-- BRZM (R117). -/
  | brzm (f : BX)
  /-- BRNZM (R117). -/
  | brnzm (f : BX)
  /-- CALL (R117). -/
  | call (f : BX)
  /-- JMPR (R118). -/
  | jmpr (f : FS)
  /-- CALLR (R118). -/
  | callr (f : FS)
  /-- RET (R118). -/
  | ret (f : FS)
  /-- MMA (R275). -/
  | mma (f : EN)
  /-- MMAG (R276). -/
  | mmag (f : EN)
  /-- MZERO (R278). -/
  | mzero (f : EN)
  /-- MLDACC (R278). -/
  | mldacc (f : EN)
  /-- MDRAIN (R279). -/
  | mdrain (f : EN)
  /-- MDRAINA (R279). -/
  | mdraina (f : EN)
  /-- MQNT (R280). -/
  | mqnt (f : EN)
  /-- MDRAINB (R279). -/
  | mdrainb (f : EN)
  /-- VADD (R136). -/
  | vadd (f : V3)
  /-- VSUB (R136). -/
  | vsub (f : V3)
  /-- VMUL (R136). -/
  | vmul (f : V3)
  /-- VMULH (R136). -/
  | vmulh (f : V3)
  /-- VFMA (R136). -/
  | vfma (f : V3)
  /-- VFMS (R136). -/
  | vfms (f : V3)
  /-- VMIN (R137). -/
  | vmin (f : V3)
  /-- VMAX (R137). -/
  | vmax (f : V3)
  /-- VAND (R138). -/
  | vand (f : V3)
  /-- VOR (R138). -/
  | vor (f : V3)
  /-- VXOR (R138). -/
  | vxor (f : V3)
  /-- VANDN (R138). -/
  | vandn (f : V3)
  /-- VSHL (R138). -/
  | vshl (f : V3)
  /-- VSHR (R138). -/
  | vshr (f : V3)
  /-- VSAR (R138). -/
  | vsar (f : V3)
  /-- VROT (R138). -/
  | vrot (f : V3)
  /-- VCMP (R140). -/
  | vcmp (f : CS)
  /-- VSEL (R142). -/
  | vsel (f : V3)
  /-- VFLK (R143). -/
  | vflk (f : V3)
  /-- VMOV (R144). -/
  | vmov (f : FS)
  /-- VNEG (R144). -/
  | vneg (f : FS)
  /-- VABS (R144). -/
  | vabs (f : FS)
  /-- VNOT (R144). -/
  | vnot (f : FS)
  /-- VPOPC (R144). -/
  | vpopc (f : FS)
  /-- VCLZ (R144). -/
  | vclz (f : FS)
  /-- VFLR (R144). -/
  | vflr (f : FS)
  /-- VCEIL (R144). -/
  | vceil (f : FS)
  /-- VTRNC (R144). -/
  | vtrnc (f : FS)
  /-- VRND (R144). -/
  | vrnd (f : FS)
  /-- VLANE (R144). -/
  | vlane (f : FS)
  /-- VBREV (R144). -/
  | vbrev (f : FS)
  /-- VCLASS (R145). -/
  | vclass (f : FS)
  /-- VDIV (R146). -/
  | vdiv (f : FL)
  /-- VRCP (R146). -/
  | vrcp (f : FL)
  /-- VSQRT (R146). -/
  | vsqrt (f : FL)
  /-- VRSQ (R146). -/
  | vrsq (f : FL)
  /-- VEXP2 (R146). -/
  | vexp2 (f : FL)
  /-- VLOG2 (R146). -/
  | vlog2 (f : FL)
  /-- VSIN (R146). -/
  | vsin (f : FL)
  /-- VCOS (R146). -/
  | vcos (f : FL)
  /-- VTANH (R146). -/
  | vtanh (f : FL)
  /-- VSIGM (R146). -/
  | vsigm (f : FL)
  /-- VEXP (R146). -/
  | vexp (f : FL)
  /-- VLOG (R146). -/
  | vlog (f : FL)
  /-- VCVT (R147). -/
  | vcvt (f : CVT)
  /-- VMOVS (R149). -/
  | vmovs (f : V3)
  /-- VGETS (R150). -/
  | vgets (f : V3)
  /-- VSHFL (R151). -/
  | vshfl (f : V3)
  /-- VBFLY (R151). -/
  | vbfly (f : V3)
  /-- VREDW_ADD (R152). -/
  | vredwAdd (f : FS)
  /-- VREDW_MIN (R152). -/
  | vredwMin (f : FS)
  /-- VREDW_MAX (R152). -/
  | vredwMax (f : FS)
  /-- VREDW_AND (R152). -/
  | vredwAnd (f : FS)
  /-- VREDW_OR (R152). -/
  | vredwOr (f : FS)
  /-- VREDW_XOR (R152). -/
  | vredwXor (f : FS)
  /-- VADDI (R139). -/
  | vaddi (f : VI)
  /-- VMOVI (R139). -/
  | vmovi (f : LI)
  /-- VQNT (R153). -/
  | vqnt (f : QN)
  /-- VDQNT (R154). -/
  | vdqnt (f : QN)
  /-- CPY (R319). -/
  | cpy (f : EN)
  /-- CPYQ (R321). -/
  | cpyq (f : EN)
  /-- CPYP (R322). -/
  | cpyp (f : EN)
  /-- LAUNCH (R349). -/
  | launch (f : EN)
  /-- PUBLISH (R310). -/
  | publish (f : EN)
  /-- UNPUB (R312). -/
  | unpub (f : EN)
  /-- VLD (R161). -/
  | vld (f : MV)
  /-- VLDB (R161). -/
  | vldb (f : MV)
  /-- VLDH (R161). -/
  | vldh (f : MV)
  /-- VLDD (R161). -/
  | vldd (f : MV)
  /-- VST (R161). -/
  | vst (f : MV)
  /-- VSTB (R161). -/
  | vstb (f : MV)
  /-- VSTH (R161). -/
  | vsth (f : MV)
  /-- VSTD (R161). -/
  | vstd (f : MV)
  /-- VLDL (R161). -/
  | vldl (f : MV)
  /-- VSTL (R161). -/
  | vstl (f : MV)
  /-- VLDLB (R161). -/
  | vldlb (f : MV)
  /-- VSTLB (R161). -/
  | vstlb (f : MV)
  /-- SLD (R164). -/
  | sld (f : MS)
  /-- SLDACQ (R165). -/
  | sldacq (f : MS)
  /-- SST (R164). -/
  | sst (f : MS)
  /-- SSTREL (R165). -/
  | sstrel (f : MS)
  /-- AMOADD (R231). -/
  | amoadd (f : AM)
  /-- AMOAND (R231). -/
  | amoand (f : AM)
  /-- AMOOR (R231). -/
  | amoor (f : AM)
  /-- AMOXOR (R231). -/
  | amoxor (f : AM)
  /-- AMOMIN (R231). -/
  | amomin (f : AM)
  /-- AMOMAX (R231). -/
  | amomax (f : AM)
  /-- AMOSWP (R231). -/
  | amoswp (f : AM)
  /-- AMOCAS (R231). -/
  | amocas (f : AM)
  /-- CPREF (R166). -/
  | cpref (f : CA)
  /-- CPREFL2 (R166). -/
  | cprefl2 (f : CA)
  /-- CFLUSH (R166). -/
  | cflush (f : CA)
  /-- CINV (R166). -/
  | cinv (f : CA)
  /-- REDADD (R167). -/
  | redadd (f : RD)
  /-- REDADDS (R167). -/
  | redadds (f : RD)
  /-- NOP (R123). -/
  | nop (f : SY)
  /-- EXIT (R125). -/
  | exit (f : SY)
  /-- YIELD (R124). -/
  | yield (f : SY)
  /-- TRAP (R255). -/
  | trap (f : SYI)
  /-- ERET (R256). -/
  | eret (f : SY)
  /-- HALT (R257). -/
  | halt (f : SY)
  /-- MODEI (R121). -/
  | modei (f : SYI)
  /-- MODEW (R121). -/
  | modew (f : SYS)
  /-- MODER (R121). -/
  | moder (f : SYS)
  /-- SYSR (R122). -/
  | sysr (f : SYR)
  /-- SYSW (R122). -/
  | sysw (f : SYR)
  /-- FENCE (R174). -/
  | fence (f : SYF)
  /-- WAITC (R171). -/
  | waitc (f : SYC)
  /-- RDC (R172). -/
  | rdc (f : SYC)
  /-- BARARR (R302). -/
  | bararr (f : SYB)
  /-- BARWAIT (R302). -/
  | barwait (f : SYB)
  /-- BARSYNC (R302). -/
  | barsync (f : SYB)
  /-- BARTEST (R302). -/
  | bartest (f : SYT)
  /-- PHADV (R307). -/
  | phadv (f : SY)
  /-- TXBEGIN (R236). -/
  | txbegin (f : SY)
  /-- TXEND (R239). -/
  | txend (f : SYS)
  /-- TXABORT (R241). -/
  | txabort (f : SYA)
  /-- TXSTAT (R241). -/
  | txstat (f : SYS)
  /-- RMAP (R258). -/
  | rmap (f : SYM)
  /-- RESERVED_ENCODING (R63). -/
  | reservedEncoding (word : W32)
  /-- ISSUE_SELECTION (R358). -/
  | issueSelection (core : BitVec 8)
  /-- CHECKER_CACHE_FILL (R191). -/
  | checkerCacheFill (core : BitVec 8)
  /-- STORE_QUEUE_DRAIN (R188). -/
  | storeQueueDrain (core : BitVec 8)
  /-- MARGIN_WINDOW (R205). -/
  | marginWindow (core : BitVec 8)
  /-- DEADLOCK_BREAKER (R201). -/
  | deadlockBreaker (core : BitVec 8)
  /-- TRAP_ENTRY (R249). -/
  | trapEntry (team : Nat)
  /-- PREEMPTION_REQUEST (R261). -/
  | preemptionRequest (gang : Nat) (reason : PreemptReason)
  /-- PREEMPTION_ENTRY (R262). -/
  | preemptionEntry (gang : Nat)
  /-- FORCED_PREEMPTION (R266). -/
  | forcedPreemption (gang : Nat)
  /-- SYSTEM_MODE_OVERRUN (R266). -/
  | systemModeOverrun (team : Nat)
  /-- RESTORE_ENTRY (R267). -/
  | restoreEntry (team : Nat)
  /-- QTAIL (R334). -/
  | qtail (q : BitVec 6) (value : W64)
  /-- PACKET_ACCEPTANCE (R336). -/
  | packetAcceptance (q : BitVec 6)
  /-- TEAM_START (R28). -/
  | teamStart (gang : Nat)
  /-- TEAM_END (R39). -/
  | teamEnd (team : Nat)
  /-- GRID_RETIREMENT (R341). -/
  | gridRetirement (seq : Nat)
  /-- TEAM_STOP (R344). -/
  | teamStop (team : Nat)
  /-- PREEMPT (R357). -/
  | preempt (value : W64)
  /-- VAULT_REPORT (R351). -/
  | vaultReport (die : BitVec 2) (vault : BitVec 6) (layers : List Int)
  /-- MIGRATION_SCAN (R356). -/
  | migrationScan (die : BitVec 2)
  /-- PRIORITY_PREEMPTION (R357). -/
  | priorityPreemption (die : BitVec 2)
  /-- RESERVATION_GRANT (R283). -/
  | reservationGrant (cluster : BitVec 6)
  /-- STARVATION (R284). -/
  | starvation (cluster : BitVec 6) (op : Nat)
  /-- GATHER_DONE (R277). -/
  | gatherDone (cluster : BitVec 6) (op : Nat)
  /-- SUBARRAY_WAKE (R291). -/
  | subarrayWake (cluster : BitVec 6) (op : Nat)
  /-- SUBARRAY_GATING (R291). -/
  | subarrayGating (core : BitVec 8)
  /-- TAPER_VERDICT (R293). -/
  | taperVerdict (cluster : BitVec 6) (op : Nat) (claims : List SumError) (residueFired : Bool)
  /-- COPY_EXECUTION (R319). -/
  | copyExecution (cluster : BitVec 6)
  /-- ENGINE_COMPLETION (R287). -/
  | engineCompletion (cluster : BitVec 6) (op : Nat)
  /-- PHASE_RELEASE (R308). -/
  | phaseRelease (team : Nat)
  /-- PUBLISH_COMPLETION (R311). -/
  | publishCompletion (team : Nat)
  /-- WINDOW_WITHDRAWAL (R313). -/
  | windowWithdrawal (gang : Nat) (base : Nat)
  /-- TX_COMMIT (R239). -/
  | txCommit (cluster : BitVec 6)
  /-- AMO_PERFORM (R232). -/
  | amoPerform (n : Nat)
  /-- DET_BOUNDARY (R362). -/
  | detBoundary (seq : Nat)
  /-- TLBICTL (R388). -/
  | tlbictl (value : W64)
  /-- ASIDTAB (R465). -/
  | asidtab (value : W64)
  /-- FQRESP (R392). -/
  | fqresp (value : W64)
  /-- SOFT_ERROR (R401). -/
  | softError (site : ErrorSite) (corrected : Bool)
  /-- PHASE_FAILURE (R395). -/
  | phaseFailure (die : BitVec 2) (quadrant : BitVec 2)
  /-- QCAP_UPDATE (R397). -/
  | qcapUpdate (die : BitVec 2) (watts : BitVec 16) (floor : Bool)
  /-- QCAP_RISE (R399). -/
  | qcapRise (die : BitVec 2)
  /-- CURRENT_GRANT (R396). -/
  | currentGrant (cluster : BitVec 6) (work : CurrentWork)
  /-- MODULE_RESET (R437): the first firmware stage, and those that it and its successors verify. -/
  | moduleReset (first : StageImage) (later : List StageImage)
  /-- HOST_APERTURE_ACCESS (R431). -/
  | hostApertureAccess (bulk : Bool) (offset : Nat) (op : HostOp)
  /-- REGISTER_WRITE (R6). -/
  | registerWrite (offset : Nat) (bytes : List Byte)
  /-- ATTCTL_GO (R438). -/
  | attctlGo (value : W64)
  /-- ATTESTATION_DONE (R438). -/
  | attestationDone
  /-- TELEMETRY_UPDATE (R439). -/
  | telemetryUpdate (samples : List Sample)
  /-- MODULE_POWER_CAP (R440). -/
  | modulePowerCap (watts : Nat)
  /-- CAP_ENFORCEMENT (R440). -/
  | capEnforcement (inputWatts : Nat)
  /-- DESTINATION_ACCEPTANCE (R435). -/
  | destinationAcceptance (t : Transit) (crc : CrcResult)
  /-- PEER_INVALIDATION (R447). -/
  | peerInvalidation (region : Nat)
  /-- INVALIDATION_ACK (R447). -/
  | invalidationAck (plane : BitVec 6) (region : Nat)
  /-- FMOD_WRITE (R460). -/
  | fmodWrite (value : W64)
  /-- ROUTE_WRITE (R443). -/
  | routeWrite (m : BitVec 12) (value : W64)
  /-- NO_USABLE_PLANE_TIMEOUT (R443). -/
  | noUsablePlaneTimeout (m : BitVec 12)
  /-- DEATH_NOTICE (R455). -/
  | deathNotice (m : BitVec 12) (boundary : BitVec 32)
  /-- BOUNDARY_MARKER (R456). -/
  | boundaryMarker (e : BitVec 32)
  /-- LAYER_RAIL_FAULT (R400). -/
  | layerRailFault (die : BitVec 2) (layer : BitVec 3) (millivolts : BitVec 32)
  /-- BURST_EXPIRY (R396). -/
  | burstExpiry (cluster : BitVec 6) (work : CurrentWork) (renew : Bool)
  /-- METER_WINDOW (R450). -/
  | meterWindow (port : BitVec 6)
  /-- MARGIN_PUBLISH (R453). -/
  | marginPublish (port : BitVec 6) (margin0 margin1 : BitVec 8)
  /-- MARGIN_WARNING (R453). -/
  | marginWarning (port : BitVec 6)
  /-- LANE_REMOVAL (R453). -/
  | laneRemoval (port : BitVec 6) (lane1 : Bool)
  /-- LANE_RETRAIN (R453). -/
  | laneRetrain (port : BitVec 6) (lane1 : Bool)
  /-- LANE_RETURN (R453). -/
  | laneReturn (port : BitVec 6) (lane1 : Bool)
  /-- SWITCH_REMOVAL_REPORT (R448). -/
  | switchRemovalReport (plane : BitVec 6)
  /-- TRANSLATION_WALK (R385). -/
  | translationWalk
  /-- DEPENDENCE_EVALUATION (R339). -/
  | dependenceEvaluation
  /-- SELECTION (R345). -/
  | selection
  /-- EFFECTIVE_LEVEL_AGING (R345). -/
  | effectiveLevelAging
  /-- GANG_OFFER (R346). -/
  | gangOffer
  /-- GANG_REOFFER (R346). -/
  | gangReoffer
  /-- TALLOW_TICK (R355). -/
  | tallowTick
  /-- REFRESH_CHARGE (R354). -/
  | refreshCharge
  /-- TLB_INVALIDATION_DONE (R388). -/
  | tlbInvalidationDone
  /-- HOST_LINK_LOSS (R428). -/
  | hostLinkLoss
  /-- HEARTBEAT (R454). -/
  | heartbeat
  /-- BOUNDARY_ACK (R456). -/
  | boundaryAck
  deriving DecidableEq, Repr

end Sys2Proof
end

