-- ==== Sys2Proof/Config.lean ====
section
/-! DEFINITION. What the implementation fixes, and the free values: what the spec leaves open stands here as an
opaque constant, so that nothing can be proved of it. -/

namespace Sys2Proof.Config

/-- The assigned system-register numbers (R62 with R203, R212, R245, R253, R290, R355, R395, R399, R403). -/
def sysAssigned (n : Nat) : Bool :=
  n ≤ 0x002 || (0x010 ≤ n && n ≤ 0x01D) || (0x020 ≤ n && n ≤ 0x028) || n == 0x030 ||
  (0x040 ≤ n && n ≤ 0x04E) || (0x050 ≤ n && n ≤ 0x052) || (0x080 ≤ n && n ≤ 0x084) ||
  n == 0x0C0 || n == 0x0C2 || n == 0x0C3 || (0x0C8 ≤ n && n ≤ 0x0CF) || (0x0D0 ≤ n && n ≤ 0x0D5)

/-- FREE VALUE (log 3): nominal core cycles that pass at the `n`-th step of the machine; R463 binds no latency. -/
opaque elapsed : Nat → Nat

/-- FREE VALUE (log 5): the word that an accumulator element holds when its gang is placed; R269 calls tile
contents undefined at placement. The arguments are the gang's draw, the core of the cluster (0 for a DET gang) and the word
index. -/
opaque tileWord : Nat → Nat → Nat → BitVec 32

/-- FREE VALUE (log 9): the `i`-th byte of the signature over a report; R437 and R438 give the signature scheme
and not the keys. -/
opaque signatureByte : List (BitVec 8) → Nat → BitVec 8

/-- FREE VALUE (log 9): the digest of the vendor's key that is fused into the device (R437). -/
opaque fusedDigest : List (BitVec 8)

/-- FREE VALUE (log 9): the security version that is fused into the device (R437). -/
opaque fusedVersion : BitVec 64

/-- FREE VALUE (log 9): whether a signature over an image is valid under a public key (R437). -/
opaque signatureValid : List (BitVec 8) → List (BitVec 8) → List (BitVec 8) → Bool

/-- FREE VALUE (log 13): the encoding of a rounded function value that the interval computation of
`Sys2Proof.Machine.transRound` leaves undecided; the argument is the function's number and the operand. -/
opaque undecided : Nat → BitVec 32 → BitVec 32

/-- FREE VALUE (logs 1, 18, 19, 27): the `n`-th free choice of the device where the spec names none (the base b_g of a
scratchpad, R214). -/
opaque choice : Nat → Nat

/-- What a cache level gives up (R382, R383): a line of L2, the entry of a 512-byte region in its die directory, a line's
entry in a cluster filter. -/
inductive Eviction where
  | line (key : Nat)
  | entry (region : Nat)
  | filter (cluster key : Nat)
  deriving DecidableEq, Repr

/-- FREE VALUE (log 12): what the package evicts at the `n`-th step, if anything. -/
opaque evict : Nat → Option Eviction

/-- FREE VALUE (log 12): the hash of R213 that gives a line's set in a cache region of `ns` sets, before the reduction
modulo `ns`; the arguments are `ns` and the line's key. -/
opaque setIndex : Nat → Nat → Nat

/-- FREE VALUE (log 12): the second-tier controller that serves agents of the I/O die while the root table, at this
address, lies on no channel of the second tier (R384). -/
opaque ioController : Nat → Nat

/-- FREE VALUE (log 12): the TLB entry, by its place, that a TLB evicts at the `n`-th step, if any. -/
opaque tlbEvict : Nat → Option Nat

/-- What the main pipeline claims for a pass (R183): the effective mask word, 0 where it skips the pass, the operand values as
it used them, the results, addresses and flags, a trap, and the target of a branch that it takes. -/
structure Claim where
  mask : BitVec 32
  operands : List (BitVec 64)
  results : List (BitVec 64)
  addresses : List (BitVec 64)
  flags : BitVec 5
  trap : Option (BitVec 8)
  next : Option (BitVec 48)
  deriving DecidableEq, Repr, Inhabited

/-- FREE VALUE (log 14): what the main pipeline claims for the pass that it issues at the `n`-th step. -/
opaque claim : Nat → Claim

/-- FREE VALUE (log 14): whether the long-latency pass that issued at the second step has its result in the main pipeline at
the first (R52). -/
opaque longDone : Nat → Nat → Bool

/-- FREE VALUE (log 14): single self-check firings that a recomputation clears at the `n`-th step (R194). -/
opaque recomputations : Nat → Nat

/-- FREE VALUE (log 14): the address at which the main pipeline loads speculatively at the `n`-th step, if it does
(R181, R190). -/
opaque speculativeLoad : Nat → Option Nat

/-- FREE VALUE (log 2): whether a core without a vector burst has issued its 16 passes of the last 64 cycles at the `n`-th
step (R396). -/
opaque passesUsed : Nat → Bool

/-- FREE VALUE (log 15): the DRAM layer that holds a local physical granule. -/
opaque layerOf : Nat → Nat

/-- FREE VALUE (log 21): the bytes of a class-0 packet sent at the `n`-th step, before the bound of 256 (R450). -/
opaque packetBytes : Nat → Nat

/-- FREE VALUE (log 24): how far a heat cap lowers a QCAP, before the bounds of R397; R399 says in proportion to the
excess. The arguments are the step of the machine, the quadrant, the QCAP, the die's power and its limit. -/
opaque capStep : Nat → Nat → Nat → Nat → Nat → Nat

/-- FREE VALUE (log 25): link retries counted with the removal of a lane at the `n`-th step (R452, R453). -/
opaque linkRetries : Nat → Nat

/-- FREE VALUE (log 78): the oldest boundary that some other live module has not acknowledged, at the `n`-th step (R457). -/
opaque oldestUnacked : Nat → Nat

/-- FREE VALUE (log 113): the bytes of a peer's line, one bit each, that an agent outside a DET grid was the last to write since
the grid started, as its home knows; the arguments are the step and the grid. -/
opaque peerWrote : Nat → Nat → BitVec 128

/-- FREE VALUE (log 26): the boundary that this module's own declaration of a death names, at the `n`-th step (R455). -/
opaque deathBoundary : Nat → Nat

end Sys2Proof.Config
end

