-- ==== Sys2Proof/WellFormed.lean ====
section
/-! DEFINITION. Which instructions are well formed: the decode checks 1 to 8 of spec/02 R64 that the word alone
decides, each under its own name, and the reasons by which a word is refused. -/

namespace Sys2Proof

/-- Why a word is no instruction; `reason` is the number R64 gives it. -/
inductive Reject where
  | scheduleVersion | majorOpcode | subCode | mustBeZero | scalarDest | oddPair | immValue | sysNumber
  /-- fewer than four bytes -/
  | truncated
  deriving DecidableEq, Repr

/-- The reason field of the illegal-instruction trap (R64). -/
def Reject.reason : Reject → Nat
  | .scheduleVersion => 1 | .majorOpcode => 2 | .subCode => 3 | .mustBeZero => 4 | .scalarDest => 5
  | .oddPair => 6 | .immValue => 7 | .sysNumber => 8 | .truncated => 3

/-- Last-read flags are ignored under SV 0b00 and must be clear elsewhere when they stand on no vector source
(R49, R51). -/
def lastReadClear (sv : BitVec 2) (flag : Bool) : Bool := sv == 0#2 || !flag

/-- Check 1: SV is not 0b11 (R49). -/
def Instr.svOk : Instr → Bool
  | .sadd f => f.sv != 3#2
  | .ssub f => f.sv != 3#2
  | .smul f => f.sv != 3#2
  | .smulh f => f.sv != 3#2
  | .sand f => f.sv != 3#2
  | .sor f => f.sv != 3#2
  | .sxor f => f.sv != 3#2
  | .sandn f => f.sv != 3#2
  | .sshl f => f.sv != 3#2
  | .sshr f => f.sv != 3#2
  | .ssar f => f.sv != 3#2
  | .srot f => f.sv != 3#2
  | .smin f => f.sv != 3#2
  | .smax f => f.sv != 3#2
  | .sminu f => f.sv != 3#2
  | .smaxu f => f.sv != 3#2
  | .slea4 f => f.sv != 3#2
  | .slea8 f => f.sv != 3#2
  | .smulhu f => f.sv != 3#2
  | .saddi f => f.sv != 3#2
  | .sandi f => f.sv != 3#2
  | .sshli f => f.sv != 3#2
  | .sshri f => f.sv != 3#2
  | .smovi f => f.sv != 3#2
  | .sseth f => f.sv != 3#2
  | .ssett f => f.sv != 3#2
  | .scmp f => f.sv != 3#2
  | .smov f => f.sv != 3#2
  | .snot f => f.sv != 3#2
  | .sneg f => f.sv != 3#2
  | .spopc f => f.sv != 3#2
  | .sclz f => f.sv != 3#2
  | .sctz f => f.sv != 3#2
  | .sbrev f => f.sv != 3#2
  | .ssext32 f => f.sv != 3#2
  | .szext32 f => f.sv != 3#2
  | .sabs f => f.sv != 3#2
  | .mand f => f.sv != 3#2
  | .mandn f => f.sv != 3#2
  | .mor f => f.sv != 3#2
  | .mxor f => f.sv != 3#2
  | .mnot f => f.sv != 3#2
  | .mpopc f => f.sv != 3#2
  | .mffs f => f.sv != 3#2
  | .mset f => f.sv != 3#2
  | .mclr f => f.sv != 3#2
  | .mcpy f => f.sv != 3#2
  | .br f => f.sv != 3#2
  | .brz f => f.sv != 3#2
  | .brnz f => f.sv != 3#2
  | .brzm f => f.sv != 3#2
  | .brnzm f => f.sv != 3#2
  | .call f => f.sv != 3#2
  | .jmpr f => f.sv != 3#2
  | .callr f => f.sv != 3#2
  | .ret f => f.sv != 3#2
  | .mma f => f.sv != 3#2
  | .mmag f => f.sv != 3#2
  | .mzero f => f.sv != 3#2
  | .mldacc f => f.sv != 3#2
  | .mdrain f => f.sv != 3#2
  | .mdraina f => f.sv != 3#2
  | .mqnt f => f.sv != 3#2
  | .mdrainb f => f.sv != 3#2
  | .vadd f => f.sv != 3#2
  | .vsub f => f.sv != 3#2
  | .vmul f => f.sv != 3#2
  | .vmulh f => f.sv != 3#2
  | .vfma f => f.sv != 3#2
  | .vfms f => f.sv != 3#2
  | .vmin f => f.sv != 3#2
  | .vmax f => f.sv != 3#2
  | .vand f => f.sv != 3#2
  | .vor f => f.sv != 3#2
  | .vxor f => f.sv != 3#2
  | .vandn f => f.sv != 3#2
  | .vshl f => f.sv != 3#2
  | .vshr f => f.sv != 3#2
  | .vsar f => f.sv != 3#2
  | .vrot f => f.sv != 3#2
  | .vcmp f => f.sv != 3#2
  | .vsel f => f.sv != 3#2
  | .vflk f => f.sv != 3#2
  | .vmov f => f.sv != 3#2
  | .vneg f => f.sv != 3#2
  | .vabs f => f.sv != 3#2
  | .vnot f => f.sv != 3#2
  | .vpopc f => f.sv != 3#2
  | .vclz f => f.sv != 3#2
  | .vflr f => f.sv != 3#2
  | .vceil f => f.sv != 3#2
  | .vtrnc f => f.sv != 3#2
  | .vrnd f => f.sv != 3#2
  | .vlane f => f.sv != 3#2
  | .vbrev f => f.sv != 3#2
  | .vclass f => f.sv != 3#2
  | .vdiv f => f.sv != 3#2
  | .vrcp f => f.sv != 3#2
  | .vsqrt f => f.sv != 3#2
  | .vrsq f => f.sv != 3#2
  | .vexp2 f => f.sv != 3#2
  | .vlog2 f => f.sv != 3#2
  | .vsin f => f.sv != 3#2
  | .vcos f => f.sv != 3#2
  | .vtanh f => f.sv != 3#2
  | .vsigm f => f.sv != 3#2
  | .vexp f => f.sv != 3#2
  | .vlog f => f.sv != 3#2
  | .vcvt f => f.sv != 3#2
  | .vmovs f => f.sv != 3#2
  | .vgets f => f.sv != 3#2
  | .vshfl f => f.sv != 3#2
  | .vbfly f => f.sv != 3#2
  | .vredwAdd f => f.sv != 3#2
  | .vredwMin f => f.sv != 3#2
  | .vredwMax f => f.sv != 3#2
  | .vredwAnd f => f.sv != 3#2
  | .vredwOr f => f.sv != 3#2
  | .vredwXor f => f.sv != 3#2
  | .vaddi f => f.sv != 3#2
  | .vmovi f => f.sv != 3#2
  | .vqnt f => f.sv != 3#2
  | .vdqnt f => f.sv != 3#2
  | .cpy f => f.sv != 3#2
  | .cpyq f => f.sv != 3#2
  | .cpyp f => f.sv != 3#2
  | .launch f => f.sv != 3#2
  | .publish f => f.sv != 3#2
  | .unpub f => f.sv != 3#2
  | .vld f => f.sv != 3#2
  | .vldb f => f.sv != 3#2
  | .vldh f => f.sv != 3#2
  | .vldd f => f.sv != 3#2
  | .vst f => f.sv != 3#2
  | .vstb f => f.sv != 3#2
  | .vsth f => f.sv != 3#2
  | .vstd f => f.sv != 3#2
  | .vldl f => f.sv != 3#2
  | .vstl f => f.sv != 3#2
  | .vldlb f => f.sv != 3#2
  | .vstlb f => f.sv != 3#2
  | .sld f => f.sv != 3#2
  | .sldacq f => f.sv != 3#2
  | .sst f => f.sv != 3#2
  | .sstrel f => f.sv != 3#2
  | .amoadd f => f.sv != 3#2
  | .amoand f => f.sv != 3#2
  | .amoor f => f.sv != 3#2
  | .amoxor f => f.sv != 3#2
  | .amomin f => f.sv != 3#2
  | .amomax f => f.sv != 3#2
  | .amoswp f => f.sv != 3#2
  | .amocas f => f.sv != 3#2
  | .cpref f => f.sv != 3#2
  | .cprefl2 f => f.sv != 3#2
  | .cflush f => f.sv != 3#2
  | .cinv f => f.sv != 3#2
  | .redadd f => f.sv != 3#2
  | .redadds f => f.sv != 3#2
  | .nop f => f.sv != 3#2
  | .exit f => f.sv != 3#2
  | .yield f => f.sv != 3#2
  | .trap f => f.sv != 3#2
  | .eret f => f.sv != 3#2
  | .halt f => f.sv != 3#2
  | .modei f => f.sv != 3#2
  | .modew f => f.sv != 3#2
  | .moder f => f.sv != 3#2
  | .sysr f => f.sv != 3#2
  | .sysw f => f.sv != 3#2
  | .fence f => f.sv != 3#2
  | .waitc f => f.sv != 3#2
  | .rdc f => f.sv != 3#2
  | .bararr f => f.sv != 3#2
  | .barwait f => f.sv != 3#2
  | .barsync f => f.sv != 3#2
  | .bartest f => f.sv != 3#2
  | .phadv f => f.sv != 3#2
  | .txbegin f => f.sv != 3#2
  | .txend f => f.sv != 3#2
  | .txabort f => f.sv != 3#2
  | .txstat f => f.sv != 3#2
  | .rmap f => f.sv != 3#2
  | _ => true

/-- The part of check 3 that lies in a field: VCVT FN[3:0] above 8 is reserved (R60). -/
def Instr.subCodeOk : Instr → Bool
  | .vcvt f => f.t.toNat ≤ 8
  | _ => true

/-- Check 4, last-read flags outside a vector source (R51, R108). -/
def Instr.lastReadOk : Instr → Bool
  | .smov f => lastReadClear f.sv f.l
  | .snot f => lastReadClear f.sv f.l
  | .sneg f => lastReadClear f.sv f.l
  | .spopc f => lastReadClear f.sv f.l
  | .sclz f => lastReadClear f.sv f.l
  | .sctz f => lastReadClear f.sv f.l
  | .sbrev f => lastReadClear f.sv f.l
  | .ssext32 f => lastReadClear f.sv f.l
  | .szext32 f => lastReadClear f.sv f.l
  | .sabs f => lastReadClear f.sv f.l
  | .mnot f => lastReadClear f.sv f.l
  | .mpopc f => lastReadClear f.sv f.l
  | .mffs f => lastReadClear f.sv f.l
  | .mset f => lastReadClear f.sv f.l
  | .mclr f => lastReadClear f.sv f.l
  | .mcpy f => lastReadClear f.sv f.l
  | .jmpr f => lastReadClear f.sv f.l
  | .callr f => lastReadClear f.sv f.l
  | .ret f => lastReadClear f.sv f.l
  | .vlane f => lastReadClear f.sv f.l
  | .vmovs f => lastReadClear f.sv f.l && lastReadClear f.sv f.m
  | .vgets f => lastReadClear f.sv f.m
  | .vbfly f => lastReadClear f.sv f.m
  | _ => true

/-- Check 5: a scalar destination field below 64 (R27, R58). -/
def Instr.scalarDestOk : Instr → Bool
  | .sadd f => f.d.toNat < 64
  | .ssub f => f.d.toNat < 64
  | .smul f => f.d.toNat < 64
  | .smulh f => f.d.toNat < 64
  | .sand f => f.d.toNat < 64
  | .sor f => f.d.toNat < 64
  | .sxor f => f.d.toNat < 64
  | .sandn f => f.d.toNat < 64
  | .sshl f => f.d.toNat < 64
  | .sshr f => f.d.toNat < 64
  | .ssar f => f.d.toNat < 64
  | .srot f => f.d.toNat < 64
  | .smin f => f.d.toNat < 64
  | .smax f => f.d.toNat < 64
  | .sminu f => f.d.toNat < 64
  | .smaxu f => f.d.toNat < 64
  | .slea4 f => f.d.toNat < 64
  | .slea8 f => f.d.toNat < 64
  | .smulhu f => f.d.toNat < 64
  | .saddi f => f.d.toNat < 64
  | .sandi f => f.d.toNat < 64
  | .sshli f => f.d.toNat < 64
  | .sshri f => f.d.toNat < 64
  | .smovi f => f.d.toNat < 64
  | .sseth f => f.d.toNat < 64
  | .ssett f => f.d.toNat < 64
  | .scmp f => f.d.toNat < 64
  | .smov f => f.d.toNat < 64
  | .snot f => f.d.toNat < 64
  | .sneg f => f.d.toNat < 64
  | .spopc f => f.d.toNat < 64
  | .sclz f => f.d.toNat < 64
  | .sctz f => f.d.toNat < 64
  | .sbrev f => f.d.toNat < 64
  | .ssext32 f => f.d.toNat < 64
  | .szext32 f => f.d.toNat < 64
  | .sabs f => f.d.toNat < 64
  | .mand f => f.d.toNat < 64
  | .mandn f => f.d.toNat < 64
  | .mor f => f.d.toNat < 64
  | .mxor f => f.d.toNat < 64
  | .mnot f => f.d.toNat < 64
  | .mpopc f => f.d.toNat < 64
  | .mffs f => f.d.toNat < 64
  | .mset f => f.d.toNat < 64
  | .mclr f => f.d.toNat < 64
  | .mcpy f => f.d.toNat < 64
  | .callr f => f.d.toNat < 64
  | .vcmp f => f.d.toNat < 64
  | .vgets f => f.d.toNat < 64
  | .vredwAdd f => f.d.toNat < 64
  | .vredwMin f => f.d.toNat < 64
  | .vredwMax f => f.d.toNat < 64
  | .vredwAnd f => f.d.toNat < 64
  | .vredwOr f => f.d.toNat < 64
  | .vredwXor f => f.d.toNat < 64
  | _ => true

/-- Check 6 as far as the word decides it: D of VLDD, VSTD and AMOCAS is even (R59). -/
def Instr.pairOk : Instr → Bool
  | .vldd f => f.d.toNat % 2 == 0
  | .vstd f => f.d.toNat % 2 == 0
  | .amocas f => f.d.toNat % 2 == 0
  | _ => true

/-- Check 7: reserved values of IMM16 subfields (R61). -/
def Instr.immOk : Instr → Bool
  | .fence f => f.k != 3#2 && f.o.toNat ≤ 5
  | .waitc f => f.p != 7#3
  | .rdc f => f.p != 7#3
  | .bararr f => f.i.toNat ≤ 16
  | .barwait f => f.i.toNat ≤ 16
  | .barsync f => f.i.toNat ≤ 16
  | .bartest f => f.i.toNat ≤ 16
  | _ => true

/-- Check 8: the system-register number is assigned (R62, R203, R212, R245, R253, R290, R355, R395). -/
def Instr.sysNumberOk : Instr → Bool
  | .sysr f => Config.sysAssigned f.n.toNat
  | .sysw f => Config.sysAssigned f.n.toNat
  | _ => true

/-- A well-formed step: for an encoded instruction every word-level check of R64 passes; an event is always
well formed. -/
def WellFormed (i : Instr) : Bool :=
  i.svOk && i.subCodeOk && i.lastReadOk && i.scalarDestOk && i.pairOk && i.immOk && i.sysNumberOk

end Sys2Proof
end

