-- ==== Sys2Proof/Decode.lean ====
section
/-! DEFINITION. The instruction word (spec/02 R45, R57 to R61): fields out of a word, once; the decoder with the
word's part of the decode checks in the order of R64; and the encoder, written from the same tables. -/

namespace Sys2Proof

/-- A field of a word: `n` bits from bit `lo` up (R4). -/
def fieldOf (w : W32) (lo n : Nat) : BitVec n := w.extractLsb' lo n
/-- A one-bit field. -/
def flagOf (w : W32) (lo : Nat) : Bool := w.getLsbD lo
/-- MAJ, bits [29:24] (R45). -/
def majOf (w : W32) : BitVec 6 := fieldOf w 24 6

/-- The word of format S3 (R57). -/
def S3.pack (f : S3) (maj : BitVec 6) (fn : BitVec 3) : W32 :=
  f.sv ++ maj ++ f.d ++ f.a ++ f.b ++ fn
/-- The fields of format S3 out of a word (R57). -/
def S3.unpack (w : W32) : S3 :=
  ⟨fieldOf w 30 2, fieldOf w 17 7, fieldOf w 10 7, fieldOf w 3 7⟩

/-- The word of format SI (R57). -/
def SI.pack (f : SI) (maj : BitVec 6) : W32 :=
  f.sv ++ maj ++ f.d ++ f.a ++ f.i
/-- The fields of format SI out of a word (R57). -/
def SI.unpack (w : W32) : SI :=
  ⟨fieldOf w 30 2, fieldOf w 17 7, fieldOf w 10 7, fieldOf w 0 10⟩

/-- The word of format SH (R57). -/
def SH.pack (f : SH) (maj : BitVec 6) : W32 :=
  f.sv ++ maj ++ f.d ++ f.a ++ 0#4 ++ f.i
/-- The fields of format SH out of a word (R57). -/
def SH.unpack (w : W32) : SH :=
  ⟨fieldOf w 30 2, fieldOf w 17 7, fieldOf w 10 7, fieldOf w 0 6⟩

/-- The word of format LI (R57). -/
def LI.pack (f : LI) (maj : BitVec 6) : W32 :=
  f.sv ++ maj ++ f.d ++ f.i
/-- The fields of format LI out of a word (R57). -/
def LI.unpack (w : W32) : LI :=
  ⟨fieldOf w 30 2, fieldOf w 17 7, fieldOf w 0 17⟩

/-- The word of format CS (R57). -/
def CS.pack (f : CS) (maj : BitVec 6) : W32 :=
  f.sv ++ maj ++ f.d ++ f.a ++ f.b ++ f.c
/-- The fields of format CS out of a word (R57). -/
def CS.unpack (w : W32) : CS :=
  ⟨fieldOf w 30 2, fieldOf w 17 7, fieldOf w 10 7, fieldOf w 3 7, fieldOf w 0 3⟩

/-- The word of format FS (R57). -/
def FS.pack (f : FS) (maj : BitVec 6) (fn : BitVec 6) : W32 :=
  f.sv ++ maj ++ f.d ++ f.a ++ fn ++ BitVec.ofBool f.l ++ 0#3
/-- The fields of format FS out of a word (R57). -/
def FS.unpack (w : W32) : FS :=
  ⟨fieldOf w 30 2, fieldOf w 17 7, fieldOf w 10 7, flagOf w 3⟩

/-- The word of format BX (R57). -/
def BX.pack (f : BX) (maj : BitVec 6) : W32 :=
  f.sv ++ maj ++ f.s ++ f.o
/-- The fields of format BX out of a word (R57). -/
def BX.unpack (w : W32) : BX :=
  ⟨fieldOf w 30 2, fieldOf w 18 6, fieldOf w 0 18⟩

/-- The word of format EN (R57). -/
def EN.pack (f : EN) (maj : BitVec 6) (fn : BitVec 2) : W32 :=
  f.sv ++ maj ++ f.a ++ f.b ++ f.c ++ fn ++ f.h
/-- The fields of format EN out of a word (R57). -/
def EN.unpack (w : W32) : EN :=
  ⟨fieldOf w 30 2, fieldOf w 18 6, fieldOf w 12 6, fieldOf w 6 6, fieldOf w 0 4⟩

/-- The word of format V3 (R57). -/
def V3.pack (f : V3) (maj : BitVec 6) (fn : BitVec 1) : W32 :=
  f.sv ++ maj ++ f.d ++ f.a ++ f.b ++ BitVec.ofBool f.l ++ BitVec.ofBool f.m ++ fn
/-- The fields of format V3 out of a word (R57). -/
def V3.unpack (w : W32) : V3 :=
  ⟨fieldOf w 30 2, fieldOf w 17 7, fieldOf w 10 7, fieldOf w 3 7, flagOf w 2, flagOf w 1⟩

/-- The word of format FL (R57). -/
def FL.pack (f : FL) (maj : BitVec 6) (fn : BitVec 5) : W32 :=
  f.sv ++ maj ++ f.d ++ f.a ++ fn ++ BitVec.ofBool f.l ++ f.h
/-- The fields of format FL out of a word (R57). -/
def FL.unpack (w : W32) : FL :=
  ⟨fieldOf w 30 2, fieldOf w 17 7, fieldOf w 10 7, flagOf w 4, fieldOf w 0 4⟩

/-- The word of format CVT (R57). -/
def CVT.pack (f : CVT) (maj : BitVec 6) : W32 :=
  f.sv ++ maj ++ f.d ++ f.a ++ 0#1 ++ BitVec.ofBool f.s ++ f.t ++ BitVec.ofBool f.l ++ 0#3
/-- The fields of format CVT out of a word (R57). -/
def CVT.unpack (w : W32) : CVT :=
  ⟨fieldOf w 30 2, fieldOf w 17 7, fieldOf w 10 7, flagOf w 8, fieldOf w 4 4, flagOf w 3⟩

/-- The word of format VI (R57). -/
def VI.pack (f : VI) (maj : BitVec 6) : W32 :=
  f.sv ++ maj ++ f.d ++ f.a ++ f.i ++ BitVec.ofBool f.l
/-- The fields of format VI out of a word (R57). -/
def VI.unpack (w : W32) : VI :=
  ⟨fieldOf w 30 2, fieldOf w 17 7, fieldOf w 10 7, fieldOf w 1 9, flagOf w 0⟩

/-- The word of format QN (R57). -/
def QN.pack (f : QN) (maj : BitVec 6) : W32 :=
  f.sv ++ maj ++ f.d ++ f.a ++ f.b ++ 0#1 ++ f.f
/-- The fields of format QN out of a word (R57). -/
def QN.unpack (w : W32) : QN :=
  ⟨fieldOf w 30 2, fieldOf w 17 7, fieldOf w 10 7, fieldOf w 3 7, fieldOf w 0 2⟩

/-- The word of format MV (R57). -/
def MV.pack (f : MV) (maj : BitVec 6) : W32 :=
  f.sv ++ maj ++ f.d ++ f.a ++ f.s ++ f.h
/-- The fields of format MV out of a word (R57). -/
def MV.unpack (w : W32) : MV :=
  ⟨fieldOf w 30 2, fieldOf w 17 7, fieldOf w 10 7, fieldOf w 4 6, fieldOf w 0 4⟩

/-- The word of format MS (R57). -/
def MS.pack (f : MS) (maj : BitVec 6) (fn : BitVec 1) : W32 :=
  f.sv ++ maj ++ fn ++ f.d ++ f.a ++ f.s ++ f.h
/-- The fields of format MS out of a word (R57). -/
def MS.unpack (w : W32) : MS :=
  ⟨fieldOf w 30 2, fieldOf w 17 6, fieldOf w 10 7, fieldOf w 4 6, fieldOf w 0 4⟩

/-- The word of format CA (R57). -/
def CA.pack (f : CA) (maj : BitVec 6) (fn : BitVec 7) : W32 :=
  f.sv ++ maj ++ fn ++ f.a ++ f.s ++ f.h
/-- The fields of format CA out of a word (R57). -/
def CA.unpack (w : W32) : CA :=
  ⟨fieldOf w 30 2, fieldOf w 10 7, fieldOf w 4 6, fieldOf w 0 4⟩

/-- The word of format AM (R57). -/
def AM.pack (f : AM) (maj : BitVec 6) (fn : BitVec 3) : W32 :=
  f.sv ++ maj ++ f.d ++ f.s ++ fn ++ BitVec.ofBool f.q ++ BitVec.ofBool f.r ++ 0#3 ++ f.h
/-- The fields of format AM out of a word (R57). -/
def AM.unpack (w : W32) : AM :=
  ⟨fieldOf w 30 2, fieldOf w 18 6, fieldOf w 12 6, flagOf w 8, flagOf w 7, fieldOf w 0 4⟩

/-- The word of format RD (R57). -/
def RD.pack (f : RD) (maj : BitVec 6) (fn : BitVec 1) : W32 :=
  f.sv ++ maj ++ f.d ++ 0#5 ++ fn ++ BitVec.ofBool f.t ++ f.s ++ f.h
/-- The fields of format RD out of a word (R57). -/
def RD.unpack (w : W32) : RD :=
  ⟨fieldOf w 30 2, fieldOf w 17 7, flagOf w 10, fieldOf w 4 6, fieldOf w 0 4⟩

/-- The word of format SY (R57). -/
def SY.pack (f : SY) (maj : BitVec 6) (fn : BitVec 8) : W32 :=
  f.sv ++ maj ++ fn ++ 0#16
/-- The fields of format SY out of a word (R57). -/
def SY.unpack (w : W32) : SY :=
  ⟨fieldOf w 30 2⟩

/-- The word of format SYI (R57). -/
def SYI.pack (f : SYI) (maj : BitVec 6) (fn : BitVec 8) : W32 :=
  f.sv ++ maj ++ fn ++ f.i
/-- The fields of format SYI out of a word (R57). -/
def SYI.unpack (w : W32) : SYI :=
  ⟨fieldOf w 30 2, fieldOf w 0 16⟩

/-- The word of format SYS (R57). -/
def SYS.pack (f : SYS) (maj : BitVec 6) (fn : BitVec 8) : W32 :=
  f.sv ++ maj ++ fn ++ 0#10 ++ f.s
/-- The fields of format SYS out of a word (R57). -/
def SYS.unpack (w : W32) : SYS :=
  ⟨fieldOf w 30 2, fieldOf w 0 6⟩

/-- The word of format SYR (R57). -/
def SYR.pack (f : SYR) (maj : BitVec 6) (fn : BitVec 8) : W32 :=
  f.sv ++ maj ++ fn ++ f.s ++ f.n
/-- The fields of format SYR out of a word (R57). -/
def SYR.unpack (w : W32) : SYR :=
  ⟨fieldOf w 30 2, fieldOf w 10 6, fieldOf w 0 10⟩

/-- The word of format SYF (R57). -/
def SYF.pack (f : SYF) (maj : BitVec 6) (fn : BitVec 8) : W32 :=
  f.sv ++ maj ++ fn ++ 0#11 ++ f.k ++ f.o
/-- The fields of format SYF out of a word (R57). -/
def SYF.unpack (w : W32) : SYF :=
  ⟨fieldOf w 30 2, fieldOf w 3 2, fieldOf w 0 3⟩

/-- The word of format SYC (R57). -/
def SYC.pack (f : SYC) (maj : BitVec 6) (fn : BitVec 8) : W32 :=
  f.sv ++ maj ++ fn ++ 0#7 ++ f.s ++ f.p
/-- The fields of format SYC out of a word (R57). -/
def SYC.unpack (w : W32) : SYC :=
  ⟨fieldOf w 30 2, fieldOf w 3 6, fieldOf w 0 3⟩

/-- The word of format SYB (R57). -/
def SYB.pack (f : SYB) (maj : BitVec 6) (fn : BitVec 8) : W32 :=
  f.sv ++ maj ++ fn ++ 0#11 ++ f.i
/-- The fields of format SYB out of a word (R57). -/
def SYB.unpack (w : W32) : SYB :=
  ⟨fieldOf w 30 2, fieldOf w 0 5⟩

/-- The word of format SYT (R57). -/
def SYT.pack (f : SYT) (maj : BitVec 6) (fn : BitVec 8) : W32 :=
  f.sv ++ maj ++ fn ++ 0#5 ++ f.s ++ f.i
/-- The fields of format SYT out of a word (R57). -/
def SYT.unpack (w : W32) : SYT :=
  ⟨fieldOf w 30 2, fieldOf w 5 6, fieldOf w 0 5⟩

/-- The word of format SYA (R57). -/
def SYA.pack (f : SYA) (maj : BitVec 6) (fn : BitVec 8) : W32 :=
  f.sv ++ maj ++ fn ++ 0#8 ++ f.i
/-- The fields of format SYA out of a word (R57). -/
def SYA.unpack (w : W32) : SYA :=
  ⟨fieldOf w 30 2, fieldOf w 0 8⟩

/-- The word of format SYM (R57). -/
def SYM.pack (f : SYM) (maj : BitVec 6) (fn : BitVec 8) : W32 :=
  f.sv ++ maj ++ fn ++ 0#3 ++ f.s ++ f.a
/-- The fields of format SYM out of a word (R57). -/
def SYM.unpack (w : W32) : SYM :=
  ⟨fieldOf w 30 2, fieldOf w 7 6, fieldOf w 0 7⟩

/-- The word of an instruction (R57, R60, R61); an event has none. -/
def encode : Instr → Option W32
  | .sadd f => some (f.pack 0x01#6 0#3)
  | .ssub f => some (f.pack 0x01#6 1#3)
  | .smul f => some (f.pack 0x01#6 2#3)
  | .smulh f => some (f.pack 0x01#6 3#3)
  | .sand f => some (f.pack 0x01#6 4#3)
  | .sor f => some (f.pack 0x01#6 5#3)
  | .sxor f => some (f.pack 0x01#6 6#3)
  | .sandn f => some (f.pack 0x01#6 7#3)
  | .sshl f => some (f.pack 0x02#6 0#3)
  | .sshr f => some (f.pack 0x02#6 1#3)
  | .ssar f => some (f.pack 0x02#6 2#3)
  | .srot f => some (f.pack 0x02#6 3#3)
  | .smin f => some (f.pack 0x02#6 4#3)
  | .smax f => some (f.pack 0x02#6 5#3)
  | .sminu f => some (f.pack 0x02#6 6#3)
  | .smaxu f => some (f.pack 0x02#6 7#3)
  | .slea4 f => some (f.pack 0x03#6 0#3)
  | .slea8 f => some (f.pack 0x03#6 1#3)
  | .smulhu f => some (f.pack 0x03#6 2#3)
  | .saddi f => some (f.pack 0x04#6)
  | .sandi f => some (f.pack 0x05#6)
  | .sshli f => some (f.pack 0x06#6)
  | .sshri f => some (f.pack 0x07#6)
  | .smovi f => some (f.pack 0x08#6)
  | .sseth f => some (f.pack 0x09#6)
  | .ssett f => some (f.pack 0x0A#6)
  | .scmp f => some (f.pack 0x0B#6)
  | .smov f => some (f.pack 0x0C#6 0#6)
  | .snot f => some (f.pack 0x0C#6 1#6)
  | .sneg f => some (f.pack 0x0C#6 2#6)
  | .spopc f => some (f.pack 0x0C#6 3#6)
  | .sclz f => some (f.pack 0x0C#6 4#6)
  | .sctz f => some (f.pack 0x0C#6 5#6)
  | .sbrev f => some (f.pack 0x0C#6 6#6)
  | .ssext32 f => some (f.pack 0x0C#6 7#6)
  | .szext32 f => some (f.pack 0x0C#6 8#6)
  | .sabs f => some (f.pack 0x0C#6 9#6)
  | .mand f => some (f.pack 0x0D#6 0#3)
  | .mandn f => some (f.pack 0x0D#6 1#3)
  | .mor f => some (f.pack 0x0D#6 2#3)
  | .mxor f => some (f.pack 0x0D#6 3#3)
  | .mnot f => some (f.pack 0x0E#6 0#6)
  | .mpopc f => some (f.pack 0x0E#6 1#6)
  | .mffs f => some (f.pack 0x0E#6 2#6)
  | .mset f => some (f.pack 0x0E#6 3#6)
  | .mclr f => some (f.pack 0x0E#6 4#6)
  | .mcpy f => some (f.pack 0x0E#6 5#6)
  | .br f => some (f.pack 0x0F#6)
  | .brz f => some (f.pack 0x10#6)
  | .brnz f => some (f.pack 0x11#6)
  | .brzm f => some (f.pack 0x12#6)
  | .brnzm f => some (f.pack 0x13#6)
  | .call f => some (f.pack 0x14#6)
  | .jmpr f => some (f.pack 0x15#6 0#6)
  | .callr f => some (f.pack 0x15#6 1#6)
  | .ret f => some (f.pack 0x15#6 2#6)
  | .mma f => some (f.pack 0x16#6 0#2)
  | .mmag f => some (f.pack 0x16#6 1#2)
  | .mzero f => some (f.pack 0x16#6 2#2)
  | .mldacc f => some (f.pack 0x16#6 3#2)
  | .mdrain f => some (f.pack 0x17#6 0#2)
  | .mdraina f => some (f.pack 0x17#6 1#2)
  | .mqnt f => some (f.pack 0x17#6 2#2)
  | .mdrainb f => some (f.pack 0x17#6 3#2)
  | .vadd f => some (f.pack 0x18#6 0#1)
  | .vsub f => some (f.pack 0x18#6 1#1)
  | .vmul f => some (f.pack 0x19#6 0#1)
  | .vmulh f => some (f.pack 0x19#6 1#1)
  | .vfma f => some (f.pack 0x1A#6 0#1)
  | .vfms f => some (f.pack 0x1A#6 1#1)
  | .vmin f => some (f.pack 0x1B#6 0#1)
  | .vmax f => some (f.pack 0x1B#6 1#1)
  | .vand f => some (f.pack 0x1C#6 0#1)
  | .vor f => some (f.pack 0x1C#6 1#1)
  | .vxor f => some (f.pack 0x1D#6 0#1)
  | .vandn f => some (f.pack 0x1D#6 1#1)
  | .vshl f => some (f.pack 0x1E#6 0#1)
  | .vshr f => some (f.pack 0x1E#6 1#1)
  | .vsar f => some (f.pack 0x1F#6 0#1)
  | .vrot f => some (f.pack 0x1F#6 1#1)
  | .vcmp f => some (f.pack 0x20#6)
  | .vsel f => some (f.pack 0x21#6 0#1)
  | .vflk f => some (f.pack 0x21#6 1#1)
  | .vmov f => some (f.pack 0x22#6 0#6)
  | .vneg f => some (f.pack 0x22#6 1#6)
  | .vabs f => some (f.pack 0x22#6 2#6)
  | .vnot f => some (f.pack 0x22#6 3#6)
  | .vpopc f => some (f.pack 0x22#6 4#6)
  | .vclz f => some (f.pack 0x22#6 5#6)
  | .vflr f => some (f.pack 0x22#6 6#6)
  | .vceil f => some (f.pack 0x22#6 7#6)
  | .vtrnc f => some (f.pack 0x22#6 8#6)
  | .vrnd f => some (f.pack 0x22#6 9#6)
  | .vlane f => some (f.pack 0x22#6 10#6)
  | .vbrev f => some (f.pack 0x22#6 11#6)
  | .vclass f => some (f.pack 0x22#6 12#6)
  | .vdiv f => some (f.pack 0x23#6 0#5)
  | .vrcp f => some (f.pack 0x23#6 1#5)
  | .vsqrt f => some (f.pack 0x23#6 2#5)
  | .vrsq f => some (f.pack 0x23#6 3#5)
  | .vexp2 f => some (f.pack 0x23#6 4#5)
  | .vlog2 f => some (f.pack 0x23#6 5#5)
  | .vsin f => some (f.pack 0x23#6 6#5)
  | .vcos f => some (f.pack 0x23#6 7#5)
  | .vtanh f => some (f.pack 0x23#6 8#5)
  | .vsigm f => some (f.pack 0x23#6 9#5)
  | .vexp f => some (f.pack 0x23#6 10#5)
  | .vlog f => some (f.pack 0x23#6 11#5)
  | .vcvt f => some (f.pack 0x24#6)
  | .vmovs f => some (f.pack 0x25#6 0#1)
  | .vgets f => some (f.pack 0x25#6 1#1)
  | .vshfl f => some (f.pack 0x26#6 0#1)
  | .vbfly f => some (f.pack 0x26#6 1#1)
  | .vredwAdd f => some (f.pack 0x27#6 0#6)
  | .vredwMin f => some (f.pack 0x27#6 1#6)
  | .vredwMax f => some (f.pack 0x27#6 2#6)
  | .vredwAnd f => some (f.pack 0x27#6 3#6)
  | .vredwOr f => some (f.pack 0x27#6 4#6)
  | .vredwXor f => some (f.pack 0x27#6 5#6)
  | .vaddi f => some (f.pack 0x28#6)
  | .vmovi f => some (f.pack 0x29#6)
  | .vqnt f => some (f.pack 0x2A#6)
  | .vdqnt f => some (f.pack 0x2B#6)
  | .cpy f => some (f.pack 0x2C#6 0#2)
  | .cpyq f => some (f.pack 0x2C#6 1#2)
  | .cpyp f => some (f.pack 0x2C#6 2#2)
  | .launch f => some (f.pack 0x2D#6 0#2)
  | .publish f => some (f.pack 0x2D#6 1#2)
  | .unpub f => some (f.pack 0x2D#6 2#2)
  | .vld f => some (f.pack 0x2E#6)
  | .vldb f => some (f.pack 0x2F#6)
  | .vldh f => some (f.pack 0x30#6)
  | .vldd f => some (f.pack 0x31#6)
  | .vst f => some (f.pack 0x32#6)
  | .vstb f => some (f.pack 0x33#6)
  | .vsth f => some (f.pack 0x34#6)
  | .vstd f => some (f.pack 0x35#6)
  | .vldl f => some (f.pack 0x36#6)
  | .vstl f => some (f.pack 0x37#6)
  | .vldlb f => some (f.pack 0x38#6)
  | .vstlb f => some (f.pack 0x39#6)
  | .sld f => some (f.pack 0x3A#6 0#1)
  | .sldacq f => some (f.pack 0x3A#6 1#1)
  | .sst f => some (f.pack 0x3B#6 0#1)
  | .sstrel f => some (f.pack 0x3B#6 1#1)
  | .amoadd f => some (f.pack 0x3C#6 0#3)
  | .amoand f => some (f.pack 0x3C#6 1#3)
  | .amoor f => some (f.pack 0x3C#6 2#3)
  | .amoxor f => some (f.pack 0x3C#6 3#3)
  | .amomin f => some (f.pack 0x3C#6 4#3)
  | .amomax f => some (f.pack 0x3C#6 5#3)
  | .amoswp f => some (f.pack 0x3C#6 6#3)
  | .amocas f => some (f.pack 0x3C#6 7#3)
  | .cpref f => some (f.pack 0x3D#6 0#7)
  | .cprefl2 f => some (f.pack 0x3D#6 1#7)
  | .cflush f => some (f.pack 0x3D#6 2#7)
  | .cinv f => some (f.pack 0x3D#6 3#7)
  | .redadd f => some (f.pack 0x3E#6 0#1)
  | .redadds f => some (f.pack 0x3E#6 1#1)
  | .nop f => some (f.pack 0x00#6 0#8)
  | .exit f => some (f.pack 0x00#6 1#8)
  | .yield f => some (f.pack 0x00#6 2#8)
  | .trap f => some (f.pack 0x00#6 3#8)
  | .eret f => some (f.pack 0x00#6 4#8)
  | .halt f => some (f.pack 0x00#6 5#8)
  | .modei f => some (f.pack 0x00#6 8#8)
  | .modew f => some (f.pack 0x00#6 9#8)
  | .moder f => some (f.pack 0x00#6 10#8)
  | .sysr f => some (f.pack 0x00#6 16#8)
  | .sysw f => some (f.pack 0x00#6 17#8)
  | .fence f => some (f.pack 0x00#6 24#8)
  | .waitc f => some (f.pack 0x00#6 25#8)
  | .rdc f => some (f.pack 0x00#6 26#8)
  | .bararr f => some (f.pack 0x00#6 32#8)
  | .barwait f => some (f.pack 0x00#6 33#8)
  | .barsync f => some (f.pack 0x00#6 34#8)
  | .bartest f => some (f.pack 0x00#6 35#8)
  | .phadv f => some (f.pack 0x00#6 36#8)
  | .txbegin f => some (f.pack 0x00#6 40#8)
  | .txend f => some (f.pack 0x00#6 41#8)
  | .txabort f => some (f.pack 0x00#6 42#8)
  | .txstat f => some (f.pack 0x00#6 43#8)
  | .rmap f => some (f.pack 0x00#6 48#8)
  | .issueSelection _ => none
  | .checkerCacheFill _ => none
  | .storeQueueDrain _ => none
  | .translationWalk => none
  | .marginWindow _ => none
  | .deadlockBreaker _ => none
  | .trapEntry _ => none
  | .preemptionRequest _ _ => none
  | .preemptionEntry _ => none
  | .forcedPreemption _ => none
  | .systemModeOverrun _ => none
  | .restoreEntry _ => none
  | .qtail _ _ => none
  | .packetAcceptance _ => none
  | .dependenceEvaluation => none
  | .selection => none
  | .effectiveLevelAging => none
  | .gangOffer => none
  | .gangReoffer => none
  | .teamStart _ => none
  | .teamEnd _ => none
  | .gridRetirement _ => none
  | .teamStop _ => none
  | .preempt _ => none
  | .vaultReport _ _ _ => none
  | .tallowTick => none
  | .refreshCharge => none
  | .migrationScan _ => none
  | .priorityPreemption _ => none
  | .reservationGrant _ => none
  | .starvation _ _ => none
  | .gatherDone _ _ => none
  | .subarrayWake _ _ => none
  | .subarrayGating _ => none
  | .taperVerdict _ _ _ _ => none
  | .copyExecution _ => none
  | .engineCompletion _ _ => none
  | .phaseRelease _ => none
  | .publishCompletion _ => none
  | .windowWithdrawal _ _ => none
  | .txCommit _ => none
  | .amoPerform _ => none
  | .detBoundary _ => none
  | .tlbictl _ => none
  | .tlbInvalidationDone => none
  | .asidtab _ => none
  | .fqresp _ => none
  | .softError _ _ => none
  | .phaseFailure _ _ => none
  | .layerRailFault _ _ _ => none
  | .qcapUpdate _ _ _ => none
  | .qcapRise _ => none
  | .currentGrant _ _ => none
  | .burstExpiry _ _ _ => none
  | .moduleReset _ _ => none
  | .hostLinkLoss => none
  | .hostApertureAccess _ _ _ => none
  | .registerWrite _ _ => none
  | .attctlGo _ => none
  | .attestationDone => none
  | .telemetryUpdate _ => none
  | .modulePowerCap _ => none
  | .capEnforcement _ => none
  | .destinationAcceptance _ _ => none
  | .peerInvalidation _ => none
  | .invalidationAck _ _ => none
  | .fmodWrite _ => none
  | .routeWrite _ _ => none
  | .meterWindow _ => none
  | .heartbeat => none
  | .noUsablePlaneTimeout _ => none
  | .deathNotice _ _ => none
  | .boundaryMarker _ => none
  | .boundaryAck => none
  | .marginPublish _ _ _ => none
  | .marginWarning _ => none
  | .laneRemoval _ _ => none
  | .laneRetrain _ _ => none
  | .laneReturn _ _ => none
  | .reservedEncoding _ => none
  | .switchRemovalReport _ => none

/-- The SY group by its SUB, bits [23:16] (R61). -/
def candidateSy (w : W32) : Option Instr :=
  match (fieldOf w 16 8).toNat with
  | 0x00 => some (.nop (.unpack w))
  | 0x01 => some (.exit (.unpack w))
  | 0x02 => some (.yield (.unpack w))
  | 0x03 => some (.trap (.unpack w))
  | 0x04 => some (.eret (.unpack w))
  | 0x05 => some (.halt (.unpack w))
  | 0x08 => some (.modei (.unpack w))
  | 0x09 => some (.modew (.unpack w))
  | 0x0A => some (.moder (.unpack w))
  | 0x10 => some (.sysr (.unpack w))
  | 0x11 => some (.sysw (.unpack w))
  | 0x18 => some (.fence (.unpack w))
  | 0x19 => some (.waitc (.unpack w))
  | 0x1A => some (.rdc (.unpack w))
  | 0x20 => some (.bararr (.unpack w))
  | 0x21 => some (.barwait (.unpack w))
  | 0x22 => some (.barsync (.unpack w))
  | 0x23 => some (.bartest (.unpack w))
  | 0x24 => some (.phadv (.unpack w))
  | 0x28 => some (.txbegin (.unpack w))
  | 0x29 => some (.txend (.unpack w))
  | 0x2A => some (.txabort (.unpack w))
  | 0x2B => some (.txstat (.unpack w))
  | 0x30 => some (.rmap (.unpack w))
  | _ => none

/-- MAJ 0x01 by its sub-code (R60). -/
def candidate01 (w : W32) : Option Instr :=
  match (fieldOf w 0 3).toNat with
  | 0 => some (.sadd (.unpack w))
  | 1 => some (.ssub (.unpack w))
  | 2 => some (.smul (.unpack w))
  | 3 => some (.smulh (.unpack w))
  | 4 => some (.sand (.unpack w))
  | 5 => some (.sor (.unpack w))
  | 6 => some (.sxor (.unpack w))
  | 7 => some (.sandn (.unpack w))
  | _ => none

/-- MAJ 0x02 by its sub-code (R60). -/
def candidate02 (w : W32) : Option Instr :=
  match (fieldOf w 0 3).toNat with
  | 0 => some (.sshl (.unpack w))
  | 1 => some (.sshr (.unpack w))
  | 2 => some (.ssar (.unpack w))
  | 3 => some (.srot (.unpack w))
  | 4 => some (.smin (.unpack w))
  | 5 => some (.smax (.unpack w))
  | 6 => some (.sminu (.unpack w))
  | 7 => some (.smaxu (.unpack w))
  | _ => none

/-- MAJ 0x03 by its sub-code (R60). -/
def candidate03 (w : W32) : Option Instr :=
  match (fieldOf w 0 3).toNat with
  | 0 => some (.slea4 (.unpack w))
  | 1 => some (.slea8 (.unpack w))
  | 2 => some (.smulhu (.unpack w))
  | _ => none

/-- MAJ 0x0C by its sub-code (R60). -/
def candidate0C (w : W32) : Option Instr :=
  match (fieldOf w 4 6).toNat with
  | 0 => some (.smov (.unpack w))
  | 1 => some (.snot (.unpack w))
  | 2 => some (.sneg (.unpack w))
  | 3 => some (.spopc (.unpack w))
  | 4 => some (.sclz (.unpack w))
  | 5 => some (.sctz (.unpack w))
  | 6 => some (.sbrev (.unpack w))
  | 7 => some (.ssext32 (.unpack w))
  | 8 => some (.szext32 (.unpack w))
  | 9 => some (.sabs (.unpack w))
  | _ => none

/-- MAJ 0x0D by its sub-code (R60). -/
def candidate0D (w : W32) : Option Instr :=
  match (fieldOf w 0 3).toNat with
  | 0 => some (.mand (.unpack w))
  | 1 => some (.mandn (.unpack w))
  | 2 => some (.mor (.unpack w))
  | 3 => some (.mxor (.unpack w))
  | _ => none

/-- MAJ 0x0E by its sub-code (R60). -/
def candidate0E (w : W32) : Option Instr :=
  match (fieldOf w 4 6).toNat with
  | 0 => some (.mnot (.unpack w))
  | 1 => some (.mpopc (.unpack w))
  | 2 => some (.mffs (.unpack w))
  | 3 => some (.mset (.unpack w))
  | 4 => some (.mclr (.unpack w))
  | 5 => some (.mcpy (.unpack w))
  | _ => none

/-- MAJ 0x15 by its sub-code (R60). -/
def candidate15 (w : W32) : Option Instr :=
  match (fieldOf w 4 6).toNat with
  | 0 => some (.jmpr (.unpack w))
  | 1 => some (.callr (.unpack w))
  | 2 => some (.ret (.unpack w))
  | _ => none

/-- MAJ 0x16 by its sub-code (R60). -/
def candidate16 (w : W32) : Option Instr :=
  match (fieldOf w 4 2).toNat with
  | 0 => some (.mma (.unpack w))
  | 1 => some (.mmag (.unpack w))
  | 2 => some (.mzero (.unpack w))
  | 3 => some (.mldacc (.unpack w))
  | _ => none

/-- MAJ 0x17 by its sub-code (R60). -/
def candidate17 (w : W32) : Option Instr :=
  match (fieldOf w 4 2).toNat with
  | 0 => some (.mdrain (.unpack w))
  | 1 => some (.mdraina (.unpack w))
  | 2 => some (.mqnt (.unpack w))
  | 3 => some (.mdrainb (.unpack w))
  | _ => none

/-- MAJ 0x18 by its sub-code (R60). -/
def candidate18 (w : W32) : Option Instr :=
  match (fieldOf w 0 1).toNat with
  | 0 => some (.vadd (.unpack w))
  | 1 => some (.vsub (.unpack w))
  | _ => none

/-- MAJ 0x19 by its sub-code (R60). -/
def candidate19 (w : W32) : Option Instr :=
  match (fieldOf w 0 1).toNat with
  | 0 => some (.vmul (.unpack w))
  | 1 => some (.vmulh (.unpack w))
  | _ => none

/-- MAJ 0x1A by its sub-code (R60). -/
def candidate1A (w : W32) : Option Instr :=
  match (fieldOf w 0 1).toNat with
  | 0 => some (.vfma (.unpack w))
  | 1 => some (.vfms (.unpack w))
  | _ => none

/-- MAJ 0x1B by its sub-code (R60). -/
def candidate1B (w : W32) : Option Instr :=
  match (fieldOf w 0 1).toNat with
  | 0 => some (.vmin (.unpack w))
  | 1 => some (.vmax (.unpack w))
  | _ => none

/-- MAJ 0x1C by its sub-code (R60). -/
def candidate1C (w : W32) : Option Instr :=
  match (fieldOf w 0 1).toNat with
  | 0 => some (.vand (.unpack w))
  | 1 => some (.vor (.unpack w))
  | _ => none

/-- MAJ 0x1D by its sub-code (R60). -/
def candidate1D (w : W32) : Option Instr :=
  match (fieldOf w 0 1).toNat with
  | 0 => some (.vxor (.unpack w))
  | 1 => some (.vandn (.unpack w))
  | _ => none

/-- MAJ 0x1E by its sub-code (R60). -/
def candidate1E (w : W32) : Option Instr :=
  match (fieldOf w 0 1).toNat with
  | 0 => some (.vshl (.unpack w))
  | 1 => some (.vshr (.unpack w))
  | _ => none

/-- MAJ 0x1F by its sub-code (R60). -/
def candidate1F (w : W32) : Option Instr :=
  match (fieldOf w 0 1).toNat with
  | 0 => some (.vsar (.unpack w))
  | 1 => some (.vrot (.unpack w))
  | _ => none

/-- MAJ 0x21 by its sub-code (R60). -/
def candidate21 (w : W32) : Option Instr :=
  match (fieldOf w 0 1).toNat with
  | 0 => some (.vsel (.unpack w))
  | 1 => some (.vflk (.unpack w))
  | _ => none

/-- MAJ 0x22 by its sub-code (R60). -/
def candidate22 (w : W32) : Option Instr :=
  match (fieldOf w 4 6).toNat with
  | 0 => some (.vmov (.unpack w))
  | 1 => some (.vneg (.unpack w))
  | 2 => some (.vabs (.unpack w))
  | 3 => some (.vnot (.unpack w))
  | 4 => some (.vpopc (.unpack w))
  | 5 => some (.vclz (.unpack w))
  | 6 => some (.vflr (.unpack w))
  | 7 => some (.vceil (.unpack w))
  | 8 => some (.vtrnc (.unpack w))
  | 9 => some (.vrnd (.unpack w))
  | 10 => some (.vlane (.unpack w))
  | 11 => some (.vbrev (.unpack w))
  | 12 => some (.vclass (.unpack w))
  | _ => none

/-- MAJ 0x23 by its sub-code (R60). -/
def candidate23 (w : W32) : Option Instr :=
  match (fieldOf w 5 5).toNat with
  | 0 => some (.vdiv (.unpack w))
  | 1 => some (.vrcp (.unpack w))
  | 2 => some (.vsqrt (.unpack w))
  | 3 => some (.vrsq (.unpack w))
  | 4 => some (.vexp2 (.unpack w))
  | 5 => some (.vlog2 (.unpack w))
  | 6 => some (.vsin (.unpack w))
  | 7 => some (.vcos (.unpack w))
  | 8 => some (.vtanh (.unpack w))
  | 9 => some (.vsigm (.unpack w))
  | 10 => some (.vexp (.unpack w))
  | 11 => some (.vlog (.unpack w))
  | _ => none

/-- MAJ 0x25 by its sub-code (R60). -/
def candidate25 (w : W32) : Option Instr :=
  match (fieldOf w 0 1).toNat with
  | 0 => some (.vmovs (.unpack w))
  | 1 => some (.vgets (.unpack w))
  | _ => none

/-- MAJ 0x26 by its sub-code (R60). -/
def candidate26 (w : W32) : Option Instr :=
  match (fieldOf w 0 1).toNat with
  | 0 => some (.vshfl (.unpack w))
  | 1 => some (.vbfly (.unpack w))
  | _ => none

/-- MAJ 0x27 by its sub-code (R60). -/
def candidate27 (w : W32) : Option Instr :=
  match (fieldOf w 4 6).toNat with
  | 0 => some (.vredwAdd (.unpack w))
  | 1 => some (.vredwMin (.unpack w))
  | 2 => some (.vredwMax (.unpack w))
  | 3 => some (.vredwAnd (.unpack w))
  | 4 => some (.vredwOr (.unpack w))
  | 5 => some (.vredwXor (.unpack w))
  | _ => none

/-- MAJ 0x2C by its sub-code (R60). -/
def candidate2C (w : W32) : Option Instr :=
  match (fieldOf w 4 2).toNat with
  | 0 => some (.cpy (.unpack w))
  | 1 => some (.cpyq (.unpack w))
  | 2 => some (.cpyp (.unpack w))
  | _ => none

/-- MAJ 0x2D by its sub-code (R60). -/
def candidate2D (w : W32) : Option Instr :=
  match (fieldOf w 4 2).toNat with
  | 0 => some (.launch (.unpack w))
  | 1 => some (.publish (.unpack w))
  | 2 => some (.unpub (.unpack w))
  | _ => none

/-- MAJ 0x3A by its sub-code (R60). -/
def candidate3A (w : W32) : Option Instr :=
  match (fieldOf w 23 1).toNat with
  | 0 => some (.sld (.unpack w))
  | 1 => some (.sldacq (.unpack w))
  | _ => none

/-- MAJ 0x3B by its sub-code (R60). -/
def candidate3B (w : W32) : Option Instr :=
  match (fieldOf w 23 1).toNat with
  | 0 => some (.sst (.unpack w))
  | 1 => some (.sstrel (.unpack w))
  | _ => none

/-- MAJ 0x3C by its sub-code (R60). -/
def candidate3C (w : W32) : Option Instr :=
  match (fieldOf w 9 3).toNat with
  | 0 => some (.amoadd (.unpack w))
  | 1 => some (.amoand (.unpack w))
  | 2 => some (.amoor (.unpack w))
  | 3 => some (.amoxor (.unpack w))
  | 4 => some (.amomin (.unpack w))
  | 5 => some (.amomax (.unpack w))
  | 6 => some (.amoswp (.unpack w))
  | 7 => some (.amocas (.unpack w))
  | _ => none

/-- MAJ 0x3D by its sub-code (R60). -/
def candidate3D (w : W32) : Option Instr :=
  match (fieldOf w 17 7).toNat with
  | 0 => some (.cpref (.unpack w))
  | 1 => some (.cprefl2 (.unpack w))
  | 2 => some (.cflush (.unpack w))
  | 3 => some (.cinv (.unpack w))
  | _ => none

/-- MAJ 0x3E by its sub-code (R60). -/
def candidate3E (w : W32) : Option Instr :=
  match (fieldOf w 11 1).toNat with
  | 0 => some (.redadd (.unpack w))
  | 1 => some (.redadds (.unpack w))
  | _ => none

/-- The instruction that MAJ and the sub-code name, with the word's fields; none for a sub-code that R60 and R61
leave reserved (check 3). -/
def candidate (w : W32) : Option Instr :=
  match (majOf w).toNat with
  | 0x00 => candidateSy w
  | 0x01 => candidate01 w
  | 0x02 => candidate02 w
  | 0x03 => candidate03 w
  | 0x04 => some (.saddi (.unpack w))
  | 0x05 => some (.sandi (.unpack w))
  | 0x06 => some (.sshli (.unpack w))
  | 0x07 => some (.sshri (.unpack w))
  | 0x08 => some (.smovi (.unpack w))
  | 0x09 => some (.sseth (.unpack w))
  | 0x0A => some (.ssett (.unpack w))
  | 0x0B => some (.scmp (.unpack w))
  | 0x0C => candidate0C w
  | 0x0D => candidate0D w
  | 0x0E => candidate0E w
  | 0x0F => some (.br (.unpack w))
  | 0x10 => some (.brz (.unpack w))
  | 0x11 => some (.brnz (.unpack w))
  | 0x12 => some (.brzm (.unpack w))
  | 0x13 => some (.brnzm (.unpack w))
  | 0x14 => some (.call (.unpack w))
  | 0x15 => candidate15 w
  | 0x16 => candidate16 w
  | 0x17 => candidate17 w
  | 0x18 => candidate18 w
  | 0x19 => candidate19 w
  | 0x1A => candidate1A w
  | 0x1B => candidate1B w
  | 0x1C => candidate1C w
  | 0x1D => candidate1D w
  | 0x1E => candidate1E w
  | 0x1F => candidate1F w
  | 0x20 => some (.vcmp (.unpack w))
  | 0x21 => candidate21 w
  | 0x22 => candidate22 w
  | 0x23 => candidate23 w
  | 0x24 => some (.vcvt (.unpack w))
  | 0x25 => candidate25 w
  | 0x26 => candidate26 w
  | 0x27 => candidate27 w
  | 0x28 => some (.vaddi (.unpack w))
  | 0x29 => some (.vmovi (.unpack w))
  | 0x2A => some (.vqnt (.unpack w))
  | 0x2B => some (.vdqnt (.unpack w))
  | 0x2C => candidate2C w
  | 0x2D => candidate2D w
  | 0x2E => some (.vld (.unpack w))
  | 0x2F => some (.vldb (.unpack w))
  | 0x30 => some (.vldh (.unpack w))
  | 0x31 => some (.vldd (.unpack w))
  | 0x32 => some (.vst (.unpack w))
  | 0x33 => some (.vstb (.unpack w))
  | 0x34 => some (.vsth (.unpack w))
  | 0x35 => some (.vstd (.unpack w))
  | 0x36 => some (.vldl (.unpack w))
  | 0x37 => some (.vstl (.unpack w))
  | 0x38 => some (.vldlb (.unpack w))
  | 0x39 => some (.vstlb (.unpack w))
  | 0x3A => candidate3A w
  | 0x3B => candidate3B w
  | 0x3C => candidate3C w
  | 0x3D => candidate3D w
  | 0x3E => candidate3E w
  | _ => none

/-- The decoder. The checks of R64 that the word alone decides, in order: SV (1), MAJ (2), sub-code (3, with
VCVT's destination type), must-be-zero bits and last-read flags (4), scalar destination (5), pair (6), IMM16
value (7), system-register number (8). A word whose must-be-zero bits are clear is the word of its fields. VQNT's and VDQNT's C[2]
and VCVT's FN[5], which R58 and R60 give as zero, are such bits and no sub-code (DESIGN CHOICE, log 119). -/
def decode (w : W32) : Except Reject Instr :=
  if fieldOf w 30 2 = 3#2 then .error .scheduleVersion
  else if majOf w = 0x3F#6 then .error .majorOpcode
  else match candidate w with
    | none => .error .subCode
    | some i =>
      if !i.subCodeOk then .error .subCode
      else if encode i ≠ some w || !i.lastReadOk then .error .mustBeZero
      else if !i.scalarDestOk then .error .scalarDest
      else if !i.pairOk then .error .oddPair
      else if !i.immOk then .error .immValue
      else if !i.sysNumberOk then .error .sysNumber
      else .ok i

/-- A word from four bytes, least significant first (R5, R46). -/
def wordOfBytes (b0 b1 b2 b3 : Byte) : W32 := b3 ++ b2 ++ b1 ++ b0

/-- The decoder over bytes as memory holds them: one instruction and the bytes that follow it. -/
def decodeBytes : List Byte → Except Reject (Instr × List Byte)
  | b0 :: b1 :: b2 :: b3 :: rest =>
    match decode (wordOfBytes b0 b1 b2 b3) with
    | .ok i => .ok (i, rest)
    | .error r => .error r
  | _ => .error .truncated

/-- The bytes of a word in memory order (R5). -/
def bytesOfWord (w : W32) : List Byte :=
  [w.extractLsb' 0 8, w.extractLsb' 8 8, w.extractLsb' 16 8, w.extractLsb' 24 8]

/-- What the decoder reads from an instruction whose bits are `w`; every Rimen instruction is one 32-bit word. -/
def decodeTableWord (nbits w : Nat) : Option Instr :=
  if 32 < nbits then none
  else match decodeBytes (bytesOfWord (BitVec.ofNat 32 w)) with
    | .ok (i, _) => some i
    | .error _ => none

end Sys2Proof
end

