-- ==== Sys2Proof/Machine/State.lean ====
section
/-! DEFINITION. The state of the machine as plain data: every register, memory, queue and record the spec gives the
module, one structure per holder, and `State.reset`. INVENTORY.md lists each field with its rule. -/

namespace Sys2Proof.Machine

/-- A finite map by number, kept with strictly rising keys (Machine/Table.lean reads and writes it). -/
abbrev Tab (α : Type) := List (Nat × α)

/-- A byte memory: cells in rising order, none that holds what an unlisted address reads as (log 4). -/
abbrev Memory := List Host.Cell

/-- A register row: 32 lanes of 32 bits (R33). -/
abbrev Row := Vector W32 32

/-- A byte's location (R163, R381): a virtual address under its tag ASID, or a scratchpad byte of a gang's group. -/
inductive Loc where
  | virt (tag : BitVec 16) (va : Nat)
  | pool (gang : Nat) (group : Nat) (off : Nat)
  deriving DecidableEq, Repr

/-- A leaf as a walk or the identity rule gives it (R386, R465): the page's first virtual address, its size as a power
of two, the global physical address of its first byte and its bits. -/
structure Page where
  va : Nat
  log2 : Nat
  pa : Nat
  r : Bool
  w : Bool
  x : Bool
  u : Bool
  c : Bool
  deriving DecidableEq, Repr

/-- One entry of the checked store queue: bytes of one 128-byte line (R188). -/
structure QEntry where
  team : Nat
  path : Nat
  op : Nat
  loc : Loc
  bytes : List (Nat × Byte)
  /-- the translation under which it was checked (R197) -/
  page : Option Page := none
  /-- sent to a peer and not yet accepted (R188) -/
  sent : Bool := false
  /-- a store of SST or SSTREL, class 0 on the fabric (R449) -/
  scalar : Bool := false
  /-- its number in the order in which entries entered the queue -/
  n : Nat := 0
  /-- the tag under which a window store was checked (R197) -/
  tag : Option (BitVec 16) := none
  /-- entries that must be visible to every agent first: stores that an acquire of its team has read (R222, R224) -/
  after : List Nat := []
  deriving DecidableEq, Repr

/-- An operation counted on an in-flight path, in issue order (R169, R170). -/
structure Flight where
  id : Nat
  done : Bool
  deriving DecidableEq, Repr

/-- A trap with its record (R252). -/
structure TrapRec where
  cause : BitVec 8
  done : Bool := false
  waitOnly : Bool := false
  pc : Addr
  pass : Nat := 0
  lane : Nat := 0
  info : W64 := 0
  /-- a reported trap (R250) -/
  isReport : Bool := false
  deriving DecidableEq, Repr

/-- Where a team stands in its life (R39, R257, R344). -/
inductive TeamStat where
  /-- resident and executing -/
  | running
  /-- its EXIT has been checked (R125) -/
  | exited
  /-- has executed a faulted HALT, taken a double trap or been stopped with its grid (R251, R257, R344) -/
  | stopped
  /-- has executed the HALT of a save (R257) -/
  | saved
  /-- has ended (R39): its rows, h registers and counters are released, the rest of it stands as it left it (R427) -/
  | ended
  deriving DecidableEq, Repr

/-- A command whose completion the team awaits before it issues again (R239, R309, R349). -/
inductive Await where
  | txend (d : BitVec 6)
  | publish (base : Nat)
  | unpub (base : Nat) (tag : BitVec 16)
  /-- the acceptance of a launch slot's bytes at a peer: status register and queue -/
  | launch (d q : BitVec 6)
  deriving DecidableEq, Repr

/-- Why a team of a DET grid has ended its quantum (R361). -/
inductive Park where
  /-- a multiple of Q -/
  | clock
  /-- a synchronising operation is pending in its serial slot -/
  | sync
  /-- WAITC on an engine path -/
  | waitc
  /-- the wait of a barrier -/
  | barrier
  /-- the wait of PHADV -/
  | phase
  /-- the private buffer is full -/
  | buffer
  /-- the deadlock breaker (R370) -/
  | breaker
  deriving DecidableEq, Repr

/-- A byte that a transactional lane has read, with the value it read (R237). -/
structure TxRead where
  lane : Nat
  tag : BitVec 16
  va : Nat
  value : Byte
  /-- taken from the lane's own transactional store, so not compared at TXEND -/
  own : Bool
  deriving DecidableEq, Repr

/-- A byte that a transactional lane has written, in program order (R237). -/
structure TxWrite where
  lane : Nat
  tag : BitVec 16
  va : Nat
  value : Byte
  deriving DecidableEq, Repr

/-- The status fields of TXSTAT (R241). -/
structure TxStatus where
  lowfail : BitVec 16 := 0xFFFF
  count : BitVec 16 := 0
  failrun : BitVec 4 := 0
  active : Bool := false
  esc : Bool := false
  abort : Bool := false
  /-- USER, REMOTE, CAPACITY, INTRA, CONFLICT -/
  reasons : BitVec 5 := 0
  code : BitVec 8 := 0
  deriving DecidableEq, Repr

/-- The transaction of a team (R236, R237): lanes, sets and checkpoint. -/
structure Tx where
  parts : BitVec 1024 := 0
  live : BitVec 1024 := 0
  restart : Addr := 0
  ckS : Vector W64 64 := Vector.replicate 64 0
  ckMode : W32 := 0
  ckFkey : W32 := 0
  ckRetired : W64 := 0
  ckRows : Tab Row := []
  /-- rows written or released since TXBEGIN, with the lanes that did so (R240) -/
  touched : Tab W32 := []
  /-- content of rows released by a last-read flag since TXBEGIN (R236) -/
  deferred : Tab Row := []
  /-- the marks of `Team.rowErr` that lay on rows of the checkpoint, and on those of `deferred` (R401) -/
  ckErr : List Nat := []
  deferredErr : List Nat := []
  reads : List TxRead := []
  writes : List TxWrite := []
  /-- the status immediately before TXBEGIN, for R244 under DET -/
  before : TxStatus := {}
  beforeAbPc : W64 := 0
  deriving DecidableEq, Repr

/-- The launch values a team reads through k48 to k60 (R30). -/
structure Launch where
  number : BitVec 12 := 0
  gangs : Nat := 1
  teams : Nat := 1
  x : BitVec 16 := 0
  y : BitVec 16 := 0
  z : BitVec 16 := 0
  gx : BitVec 16 := 1
  gy : BitVec 16 := 1
  gz : BitVec 16 := 1
  depth : Nat := 0
  scratch : Nat := 0
  acc : Nat := 0
  phase : Nat := 0
  det : Bool := false
  cohort : Bool := false
  qlog : Nat := 0
  priority : BitVec 2 := 0
  deriving DecidableEq, Repr

/-- A flag raised in an instruction's exception window: pass, lane, flags (R132). -/
structure Raised where
  w : Nat
  lane : Nat
  fl : BitVec 5
  deriving DecidableEq, Repr

/-- What an instruction whose earlier passes are committed carries to those still to come (R127, R132, R151, R152): the
passes committed, the rows they overwrote as these stood before it, the fold of VREDW, the flags of the window. -/
structure Progress where
  pc : Addr := 0
  words : List (Nat × W32) := []
  old : List (Nat × Option Row) := []
  acc : Option (Nat × Nat) := none
  ev : List Raised := []
  deriving DecidableEq, Repr

/-- The rows that a pass waiting at its check is to write and to release (R187, R236); `late`: those, by key, that the
instruction releases after this pass, its last. -/
structure RowNeed where
  dst : List Nat
  gone : List Nat
  w : Nat
  late : List Nat := []
  deriving DecidableEq, Repr

/-- An entry of the operand log (R183): a pass as the main pipeline issued it, and all that it claims for it. -/
structure LogEntry where
  pc : Addr
  /-- none where the fetch traps (R119, R466) -/
  word : Option W32
  w : Nat
  /-- the number of its instruction in the team's program order, and the step at which it issued -/
  n : Nat
  at_ : Nat
  /-- staging rows that hold its results (R187), and the counter that its instruction raised with it (R199) -/
  rows : Nat
  path : Option (Fin 8)
  claim : Config.Claim
  deriving DecidableEq, Repr

/-- What the main pipeline holds for a team (R183, R195, R204): its unchecked passes in program order, where it issues
next when that is not the committed place, and what its verdicts add to the core's counters at the end of the step. -/
structure Pipeline where
  log : List LogEntry := []
  next : Option (Addr × Nat) := none
  /-- the numbers, in program order, of the committed instruction and of the one at `next` -/
  base : Nat := 0
  count : Nat := 0
  /-- what the step has checked: a retirement, from where and to where, a trap at a pass, and the flags by pass -/
  went : Option (Addr × Addr) := none
  trapped : Option (BitVec 8 × Nat) := none
  flags : List Raised := []
  misload : Nat := 0
  miscomp : Nat := 0
  flushed : Nat := 0
  /-- a pass of it has been issued or checked in this step (R201) -/
  acted : Bool := false
  deriving DecidableEq, Repr

/-- A team (R12, R26 to R32, R182, R253). -/
structure Team where
  seq : Nat
  gang : Nat
  num : Nat
  lanes : Nat := 32
  launch : Launch := {}
  args : Vector W64 48 := Vector.replicate 48 0
  core : BitVec 8 := 0
  group : Nat := 0
  stat : TeamStat := .running
  pc : Addr := 0
  pass : Nat := 0
  waitOnly : Bool := false
  /-- the operation of the current instruction that has begun to issue passes (R169) -/
  openOp : Option Nat := none
  s : Vector W64 64 := Vector.replicate 64 0
  h : Vector W64 8 := Vector.replicate 8 0
  rows : Tab Row := []
  /-- words of rows with an uncorrectable error, 1024·register + lane (R401) -/
  rowErr : List Nat := []
  mode : W32 := 2
  fpflags : W32 := 0
  fkey : W32 := 0
  retired : W64 := 0
  sys : Bool := false
  paths : Vector (List Flight) 8 := Vector.replicate 8 []
  opSeq : Nat := 0
  busy : List Nat := []
  trapcause : W64 := 0
  trappc : W64 := 0
  trappass : W64 := 0
  trapinfo : W64 := 0
  traplane : W64 := 0
  trapmode : W64 := 2
  saveptr : W64 := 0
  saveinfo : W64 := 0
  asid : W64 := 0
  txabpc : W64 := 0
  mxflags : W64 := 0
  detcause : W64 := 0
  detlog : Vector W64 8 := Vector.replicate 8 0
  txstat : TxStatus := {}
  tx : Tx := {}
  escOrder : Option Nat := none
  trap : Option TrapRec := none
  reports : List TrapRec := []
  pend : Tab Nat := []
  phWait : Option Nat := none
  await : Option Await := none
  /-- a save or restore routine runs (R371, R373) -/
  saving : Bool := false
  /-- stores held in the private buffer, one entry per line of a pass (R363) -/
  buf : List QEntry := []
  park : Option Park := none
  /-- a boundary of its DET grid runs: no team of it issues (R362) -/
  boundary : Bool := false
  /-- when it was found ready without having issued since (R358) -/
  readySince : Option W64 := none
  /-- when it yielded, until it is selected again, and the teams of the core that have been offered a slot since (R124) -/
  yielded : Option W64 := none
  offered : List Nat := []
  /-- a pass waits for a region row or a retention line (R201) -/
  rowWait : Option RowNeed := none
  /-- a pass of its instruction has committed and the instruction goes on: no instruction boundary (R250) -/
  inside : Bool := false
  /-- it holds rows of the core's save reserve (R264) -/
  reserve : Bool := false
  /-- entries of its core's queue that its loads have read, and those among them that an acquire orders before its later
  stores (R175, R222) -/
  seen : List Nat := []
  acquired : List Nat := []
  /-- the current instruction's progress, and that of the interrupted one while a handler runs (R198) -/
  prog : Progress := {}
  progSaved : Progress := {}
  pipe : Pipeline := {}
  deriving DecidableEq, Repr

/-- An arrival in a barrier episode: who, and the operations it is still tied to (R302). -/
structure Arrival where
  who : Nat
  ties : List (Nat × Nat) := []
  deriving DecidableEq, Repr

/-- A barrier: the number of episodes completed and the arrivals in the open one (R302). -/
structure Barrier where
  episode : Nat := 0
  arrivals : List Arrival := []
  deriving DecidableEq, Repr

/-- The scratchpad of the teams of a gang that share a core (R158, R298), with its poisoned granules (R402). -/
structure Pool where
  mem : Memory := []
  poison : List Nat := []
  deriving DecidableEq, Repr

/-- A line held by the package's virtual caches (R379, R382), its data in `State.vmem`. -/
structure Line where
  pa : Nat
  r : Bool
  w : Bool
  x : Bool
  u : Bool
  c : Bool := false
  dirty : Bool := false
  poison : BitVec 4 := 0
  /-- a read-only copy of a line homed on a peer, obtained through this plane (R446, R448) -/
  plane : Option Nat := none
  deriving DecidableEq, Repr

/-- The life of a published window (R311, R313). -/
inductive WindowStat where
  | opening | standing | closing | dormant
  deriving DecidableEq, Repr

/-- A published window (R310). -/
structure Window where
  base : Nat
  len : Nat
  off : Nat
  group : Nat
  tag : BitVec 16
  stat : WindowStat := .opening
  /-- home memory and page bits of each line, by its number in the window -/
  home : Tab Line := []
  deriving DecidableEq, Repr

/-- Where a gang stands (R297, R257, R346). -/
inductive GangStat where
  | unplaced | placed | resident | saved | ended
  deriving DecidableEq, Repr

/-- A pre-emption request of a gang (R261). -/
structure PreemptReq where
  reason : PreemptReason
  deadline : Nat
  /-- the LIMIT that governs it, in µs -/
  limit : Nat := 0
  forced : Bool := false
  taken : Bool := false
  overrun : List Nat := []
  deriving DecidableEq, Repr

/-- A placement of a gang (R297, R298, R214): its cluster, the teams of each group, the core of the cluster that hosts
each group, the base of the pinned lines of each such core. -/
structure Plan where
  cluster : BitVec 6 := 0
  groups : Tab (List Nat) := []
  coreOf : Tab Nat := []
  bases : Tab Nat := []
  deriving DecidableEq, Repr

/-- A gang (R297 to R315). -/
structure Gang where
  seq : Nat
  num : Nat
  stat : GangStat := .unplaced
  cluster : BitVec 6 := 0
  /-- team numbers by the group that shares a core, with the core position in the cluster -/
  groups : Tab (List Nat) := []
  coreOf : Tab Nat := []
  /-- live participants, and teams that have not ended (R39, R304) -/
  live : List Nat := []
  remaining : List Nat := []
  barriers : Vector Barrier 16 := Vector.replicate 16 {}
  frozen : Bool := false
  phase : BitVec 32 := 0
  phEpisode : Nat := 0
  phArrived : List Nat := []
  pools : Tab Pool := []
  windows : List Window := []
  tiles : Tab W32 := []
  tileSeed : Nat := 0
  /-- the free values of a DET gang's tiles are the same on all four cores (R372; log 5) -/
  tileAlike : Bool := false
  tilePoison : List Nat := []
  /-- tile halves whose later entries are discarded until the trap of R294 is taken, with the issuing team -/
  tileBlocked : Tab Nat := []
  preq : Option PreemptReq := none
  rowBound : Bool := false
  /-- it stands where rows are set aside for it (R202) -/
  aside : Bool := false
  /-- the capacity held for it while it migrates (R356) -/
  hold : Option Plan := none
  /-- offered, and refused by every die (R346) -/
  waiting : Bool := false
  /-- to be offered again at once, a gang having ended or been saved since (R346) -/
  again : Bool := false
  placedAt : Nat := 0
  waitSince : Nat := 0
  /-- b_g by core of the cluster (R214) -/
  bases : Tab Nat := []
  deriving DecidableEq, Repr

/-- The fields of a launch packet (R337) that outlive its acceptance. -/
structure Packet where
  entry : W64 := 0
  lanesLog : Nat := 5
  teams : Nat := 1
  flags : BitVec 16 := 0
  partition : BitVec 32 := 0
  gx : BitVec 16 := 1
  gy : BitVec 16 := 1
  gz : BitVec 16 := 1
  argSize : Nat := 0
  argAddr : W64 := 0
  scratch : Nat := 0
  accb : Nat := 0
  power : Nat := 0
  phase : Nat := 0
  vdemand : Nat := 0
  qlog : Nat := 0
  ctxBase : W64 := 0
  ctxSize : Nat := 0
  dep0Addr : W64 := 0
  dep0Val : W64 := 0
  dep1Addr : W64 := 0
  dep1Val : W64 := 0
  compAddr : W64 := 0
  compVal : W64 := 0
  reportAddr : W64 := 0
  deriving DecidableEq, Repr

/-- Where a grid stands: the states of its journal entry (R433). -/
inductive GridStat where
  | accepted | started | retired
  deriving DecidableEq, Repr

/-- An operand slot of a format block (R272). -/
structure Slot where
  fmt : Byte := 0
  sstride : Nat := 0
  key : W32 := 0
  row0 : Nat := 0
  col0 : Nat := 0
  rowlen : Nat := 0
  stride : Nat := 0
  codes : W64 := 0
  bitmap : W64 := 0
  scales : W64 := 0
  deriving DecidableEq, Repr

/-- A format block as the command carries it (R272). -/
structure FBlock where
  a : Slot := {}
  b : Slot := {}
  acc : Nat := 0
  span : Nat := 0
  btrans : Nat := 0
  koff : Nat := 0
  index : W64 := 0
  deriving DecidableEq, Repr

/-- The matrix commands (R270). -/
inductive MKind where
  | mma | mmag | mzero | mldacc | mdrain | mdraina | mdrainb | mqnt
  deriving DecidableEq, Repr

/-- Where a reservation-table entry stands (R283, R291, R293). -/
inductive MStat where
  | waiting
  /-- granted, a sub-array still to wake -/
  | waking
  /-- the pass runs -/
  | running
  /-- an MDRAINA whose parts at peers have left: it adds its words once they are accepted (R279, R446) -/
  | sent
  /-- acted; its stores or results are committed and it is to complete -/
  | acted
  /-- completed; its counter is to be lowered (R170, R282) -/
  | done
  deriving DecidableEq, Repr

/-- An entry of the reservation table (R282). -/
structure MEntry where
  op : Nat
  team : Nat
  gang : Nat
  sys : Bool
  kind : MKind
  lead : BitVec 2
  group : Nat
  tile : Nat
  addr : W64 := 0
  stride : Nat := 0
  fb : FBlock := {}
  index : List Nat := []
  bitmapA : Tab Nat := []
  bitmapB : Tab Nat := []
  latch : Memory := []
  gathered : Bool := false
  poisonSeen : Bool := false
  current : Bool := false
  starving : Bool := false
  replays : Nat := 0
  firstFail : Nat := 0
  /-- the time of its entry into the table, in ns (R284) -/
  since : Nat := 0
  stat : MStat := .waiting
  /-- the Taper array bound to the pass (R268, R290) -/
  taper : Nat := 0
  priority : BitVec 2 := 0
  /-- ASID of the issuing team -/
  asid : BitVec 16 := 0
  pc : Addr := 0
  flags : BitVec 5 := 0
  /-- a part of it at a peer was performed on no byte (R435, R445) -/
  failed : Bool := false
  /-- entries of the core's queue before this number are visible to the thread first (R226) -/
  fork : Nat := 0
  deriving DecidableEq, Repr

/-- The copy commands (R316). -/
inductive CKind where
  | cpy | cpyq | cpyp
  deriving DecidableEq, Repr

/-- A dither frame of a copy descriptor (R317). -/
structure CFrame where
  present : Bool := false
  fmt : BitVec 2 := 0
  key : W32 := 0
  row0 : Nat := 0
  col0 : Nat := 0
  rowlen : Nat := 0
  deriving DecidableEq, Repr

/-- A copy descriptor as the command carries it (R317). -/
structure CDesc where
  elem : Nat := 0
  dims : Nat := 1
  ext : List Nat := []
  sstride : List Int := []
  dstride : List Int := []
  sframe : CFrame := {}
  dframe : CFrame := {}
  deriving DecidableEq, Repr

/-- A naturally aligned 4-byte word of a copy's destination whose bytes are gathered, to be written at once (R319). -/
structure CopyWord where
  local_ : Bool
  addr : Nat
  bytes : List (Nat × Byte) := []
  bad : Bool := false
  deriving DecidableEq, Repr

/-- An entry of the copy queue (R316). -/
structure CopyCmd where
  op : Nat
  team : Nat
  gang : Nat
  group : Nat
  sys : Bool
  user : Bool
  kind : CKind
  src : W64
  dst : W64
  desc : CDesc
  asid : BitVec 16
  pc : Addr
  next : Nat := 0
  poisonSeen : Bool := false
  /-- its code-5 event is recorded (R373) -/
  outsideSeen : Bool := false
  flags : BitVec 5 := 0
  acted : Bool := false
  /-- the stop of R323: cause, and failing address -/
  stop : Option (BitVec 8 × Nat) := none
  /-- the destination word being gathered, the source word last read, and what has been written at peers (R319) -/
  word : Option CopyWord := none
  latch : Option (Loc × List Byte) := none
  away : Tab Byte := []
  /-- granules at peers, by key, that it has written poisoned (R323, R402) -/
  awayBad : List Nat := []
  /-- as in `MEntry` -/
  fork : Nat := 0
  deriving DecidableEq, Repr

/-- A RED whose update is to be applied (R167). -/
structure RedCmd where
  op : Nat
  team : Nat
  sys : Bool
  asid : BitVec 16
  base : Nat
  form : BitVec 2
  lanes : List (Nat × W32)
  pc : Addr
  /-- as in `MEntry` -/
  fork : Nat := 0
  /-- by line: the page under which its issue checked it (R168) -/
  pages : Tab Page := []
  /-- its updates of peer lines have left; it is applied here once they are accepted -/
  acted : Bool := false
  /-- classes raised by its updates at peers (R289), and whether one of them was performed on no byte (R435, R445) -/
  flags : BitVec 5 := 0
  failed : Bool := false
  deriving DecidableEq, Repr

/-- What a DET grid holds for its boundary (R364, R365): the operation a team is parked at, or a checked engine command
with all that its issue read. -/
inductive HeldCmd where
  | sync
  | matrix (e : MEntry)
  | copy (c : CopyCmd)
  | red (r : RedCmd)
  deriving DecidableEq, Repr

/-- An outstanding synchronising operation or held engine command of a DET grid (R364, R365). -/
structure Held where
  clock : Nat
  linear : Nat
  team : Nat
  instr : Instr
  cmd : HeldCmd := .sync
  escalated : Bool := false
  /-- for BARTEST: its barrier's marked episode had completed when the serial phase began (R364) -/
  seen : Bool := false
  deriving DecidableEq, Repr

/-- A grid (R336 to R345, R361). -/
structure Grid where
  seq : Nat
  number : BitVec 12
  queue : BitVec 6
  slot : BitVec 32
  depth : Nat := 0
  parent : Option Nat := none
  packet : Packet := {}
  priority : BitVec 2 := 0
  asid : BitVec 16 := 0
  stat : GridStat := .accepted
  reason : BitVec 8 := 0
  /-- STATE of its journal entry (R433) -/
  journaled : Nat := 0
  /-- its report has been written, or dropped (R341) -/
  reported : Bool := false
  /-- its dependences have been met (R339) -/
  met0 : Bool := false
  met1 : Bool := false
  /-- when they were first both met -/
  metAt : Option Nat := none
  /-- levels gained by waiting (R345) -/
  aged : Nat := 0
  dispatching : Bool := false
  dispatched : Bool := false
  nextGang : Nat := 0
  /-- placed whole, and refused by the dies (R347) -/
  waiting : Bool := false
  /-- to be offered again at once, a gang having ended or been saved since (R346) -/
  again : Bool := false
  args : Vector W64 48 := Vector.replicate 48 0
  barrier : Barrier := {}
  refused : Nat := 0
  preemptions : Nat := 0
  /-- its argument block as read, while its start waits for the journal (R338) -/
  block : Option (List Byte) := none
  /-- refresh charge, in 1/720720 byte (R354) -/
  charge : Nat := 0
  /-- gang residence in core cycles -/
  residence : Nat := 0
  round : Nat := 0
  held : List Held := []
  /-- the serial phase of a boundary has begun and not ended (R362) -/
  serial : Bool := false
  /-- the cores whose deadlock breakers are to act at the next boundary (R370) -/
  breaker : List Nat := []
  /-- bytes last written by agents outside the grid since it started (R373) -/
  outside : List Loc := []
  /-- sent a fabric transaction or loaded a peer-written line since boundary (R459) -/
  fabricSince : Option Nat := none
  deriving DecidableEq, Repr

/-- A line in a core's cache region (R213): its set, its key, whether the core holds it writable (R383), and whether it is
dirty there. -/
structure L1Line where
  set : Nat
  key : Nat
  writable : Bool := false
  dirty : Bool := false
  deriving DecidableEq, Repr

/-- The registers and queues of a core (R188, R203, R253, R355). -/
structure CoreRegs where
  trapbase : W64 := 0
  preemptlim : W64 := 100
  mgate : W64 := 2000
  tallow : W64 := 0
  misload : W64 := 0
  miscomp : W64 := 0
  flushed : W64 := 0
  chkrecomp : W64 := 0
  logstall : W64 := 0
  brkcnt : W64 := 0
  misrate : BitVec 8 := 0
  thresh : BitVec 8 := 16
  step : BitVec 4 := 0
  stepmax : BitVec 4 := 8
  adapt : Bool := true
  /-- MISCOMP at the start of the window, and windows in a row with MISRATE 0 (R205) -/
  windowBase : W64 := 0
  quiet : Nat := 0
  /-- partition word of the residents (R209, R211), as POOLCFG shows it -/
  poolReg : Nat := 8
  poolAcc : Nat := 0
  queue : List QEntry := []
  /-- entries that have entered the queue, the model's own count (log 6) -/
  entered : Nat := 0
  /-- the lines of the cache region, the least recently used first (R213) -/
  l1 : List L1Line := []
  ckc : List Nat := []
  /-- lines that came into the checker cache poisoned: the CRC check of their transfer failed twice (R435) -/
  ckcBad : List Nat := []
  fills : List Nat := []
  awake : Bool := false
  /-- CYCLE when its sub-array last fell idle (R291) -/
  idleAt : W64 := 0
  /-- 32 lines of the cache region stand evicted as the save reserve (R201, R264) -/
  reserve : Bool := false
  /-- CYCLE when a team of the core last issued or checked a pass (R201) -/
  actedAt : W64 := 0
  deriving DecidableEq, Repr

/-- The registers and queues of a cluster (R282, R290, R316, R396). -/
structure ClusterRegs where
  powered : Bool := false
  mxpass : W64 := 0
  mxreplay : W64 := 0
  mxwake : W64 := 0
  table : List MEntry := []
  copies : List CopyCmd := []
  currents : List CurrentWork := []
  deriving DecidableEq, Repr

/-- A quadrant rail (R395, R397). -/
structure Rail where
  vmv : BitVec 16 := 0
  phok : Nat := 24
  derated : Bool := false
  ilim : Nat := 240
  /-- QCAP in A; none until its first setting: ILIM (R397) -/
  qcap : Option Nat := none
  deriving DecidableEq, Repr

/-- A vault: temperature in quarter-degrees and refresh step (R351). -/
structure Vault where
  temp : Int := 0
  step : Nat := 0
  layers : List Int := []
  deriving DecidableEq, Repr

/-- The registers of a compute die (R355, R395, R399, R403). -/
structure DieRegs where
  minres : BitVec 16 := 10
  hyst : BitVec 8 := 8
  migen : Bool := true
  llrefuse : W64 := 0
  llmigr : W64 := 0
  coef : Vector W64 8
  rails : Vector Rail 4 := Vector.replicate 4 {}
  pwr : Nat := 0
  share : Nat := 520
  hflim : Nat := 520
  capped : Bool := false
  capping : Bool := false
  tripped : Bool := false
  corr : BitVec 32 := 0
  uncorr : BitVec 32 := 0
  vaults : Tab Vault := []
  offline : List Nat := []
  migrating : Option Nat := none
  deriving DecidableEq, Repr

/-- A launch queue (R334, R390). -/
structure Queue where
  base : W64 := 0
  logslots : BitVec 4 := 4
  badtail : Bool := false
  maxlvl : BitVec 2 := 3
  devok : Bool := false
  en : Bool := false
  head : BitVec 32 := 0
  tail : BitVec 32 := 0
  asid : BitVec 16 := 0
  /-- the accepted grid at the head that is not yet dispatched (BLOCKED) -/
  blocked : Option Nat := none
  /-- slots written by LAUNCH, with the parent's sequence number and depth (R349) -/
  parents : Tab Nat := []
  deriving DecidableEq, Repr

/-- How a write of an I/O-die agent to a peer stands (R445). -/
inductive WriteStat where
  | sent | accepted | failed
  deriving DecidableEq, Repr

/-- A sequence of writes that an I/O-die agent makes in order: for a grid (R341, R433), of the attestation report (R438), of
a host access (R431). -/
inductive Writer where
  | grid (seq : Nat)
  | report
  | host
  deriving DecidableEq, Repr

/-- A write of a sequence: its number, the sequence, the step of the sequence that it is, its address and how it stands. The
steps of a grid's are its journal states (R433), then its report and its completion word (R341). -/
structure AgentWrite where
  id : Nat
  owner : Writer
  step : Nat := 0
  va : Nat
  stat : WriteStat := .sent
  deriving DecidableEq, Repr

/-- A packet as read, numbered and validated, whose journal entry is being written (R336). -/
structure Accepting where
  queue : BitVec 6
  number : Nat
  bytes : List Byte
  readable : Bool
  deriving DecidableEq, Repr

/-- The launch front end (R334 to R347). -/
structure FrontEnd where
  queues : Vector Queue 64 := Vector.replicate 64 {}
  nextSeq : Nat := 1
  /-- queue last selected at each effective level (R345) -/
  lastQueue : Vector (BitVec 6) 4 := Vector.replicate 4 63
  lastDie : BitVec 2 := 3
  /-- writes to peers that a sequence awaits, and the next number, the model's own count (log 6) -/
  writes : List AgentWrite := []
  nextWrite : Nat := 1
  /-- the packet that is being accepted -/
  accepting : Option Accepting := none
  deriving DecidableEq, Repr

/-- A memory ring's registers (R393). -/
structure Ring where
  base : W64 := 0
  ovf : Bool := false
  logn : BitVec 5 := 8
  en : Bool := false
  head : BitVec 32 := 0
  tail : BitVec 32 := 0
  drop : W64 := 0
  /-- next SEQ of each source in this ring (R405) -/
  seqs : Tab Nat := []
  /-- records on their way to a peer that homes the ring, and those behind them: RHEAD has not passed them (R406) -/
  sent : List Flight := []
  deriving DecidableEq, Repr

/-- An outstanding translation fault (R391): its access and its token. -/
structure Fault' where
  token : BitVec 32
  tag : BitVec 16
  line : Nat
  write : Bool
  fetch : Bool
  user : Bool
  source : BitVec 16
  team : Option Nat
  grid : Option Nat
  deriving DecidableEq, Repr

/-- A last-level miss that waits for its walk (R384). -/
structure Walk where
  tag : BitVec 16
  line : Nat
  write : Bool
  fetch : Bool
  user : Bool
  source : BitVec 16
  team : Option Nat
  grid : Option Nat
  /-- an access of SLD or SLDACQ, class 0 on the fabric (R449) -/
  scalar : Bool := false
  /-- a CPYP destination, translated at the fabric egress (R322, R384) -/
  egress : Bool := false
  /-- an access of an I/O-die agent under ASID 0, which the identity rule serves while EN is 0 (R465) -/
  ident : Bool := false
  deriving DecidableEq, Repr

/-- A translation held by a TLB (R384, R388): the page of a tag ASID. -/
structure TlbEntry where
  /-- which TLB of R384: 64·die + 4·slice + VA[17:16] for a vault controller, 256 to 267 the second-tier controllers by
  channel, 268 fabric egress -/
  tlb : Nat
  tag : BitVec 16
  page : Page
  deriving DecidableEq, Repr

/-- The reliability block (R389, R393, R435). -/
structure Relia where
  beacon : Ring := {}
  fq : Ring := {}
  tlbiva : W64 := 0
  tlbiAsid : BitVec 16 := 0
  tlbiBusy : Bool := false
  tlbiErr : Bool := false
  tlbiFlush : Bool := false
  tlbiScope : BitVec 2 := 0
  asidtab : W64 := 0
  mcbase : W64 := 0
  crcFailed : BitVec 32 := 0
  crcRetried : BitVec 32 := 0
  nextToken : BitVec 32 := 0
  faults : List Fault' := []
  /-- accesses declared fatal and not yet reported (R392) -/
  fatal : List Fault' := []
  /-- while an invalidation runs: entries that each core's queue had taken when it began (R197) -/
  tlbiMark : Tab Nat := []
  /-- by source die, 4 for the I/O die: the outcome of the CRC check of its next transaction between dies (R435) -/
  crcNext : Tab CrcResult := []
  /-- by source id: time in ns of its last corrected-error record, and errors counted since (R401) -/
  eccAt : Tab (Nat × Nat) := []
  deriving DecidableEq, Repr

/-- The journal block (R432). -/
structure Journal where
  base : W64 := 0
  en : Bool := false
  jlog : BitVec 5 := 12
  head : W64 := 0
  deriving DecidableEq, Repr

/-- A telemetry record (R439). -/
structure PowerRec where
  sample : BitVec 32 := 0
  vmv : BitVec 32 := 0
  ima : BitVec 32 := 0
  temp : BitVec 16 := 0
  eff : BitVec 16 := 0
  pmw : BitVec 32 := 0
  flags : BitVec 3 := 0
  time : W64 := 0
  deriving DecidableEq, Repr

/-- The power block (R439, R440). -/
structure PowerBlock where
  records : Tab PowerRec := []
  cap : Nat := 2400
  deriving DecidableEq, Repr

/-- The security block and the root of trust (R437, R438). -/
structure Security where
  nonce : Vector W64 4 := Vector.replicate 4 0
  /-- the nonce and the buffer of the report that is being made: as they stood at GO (R438) -/
  jobNonce : Vector W64 4 := Vector.replicate 4 0
  jobBuf : W64 := 0
  err : Bool := false
  busy : Bool := false
  buf : W64 := 0
  measured : List StageImage := []
  bootFailed : Bool := false
  deriving DecidableEq, Repr

/-- A completion given to the host (R429, R431). -/
inductive HostReply where
  | data (bytes : List Byte)
  | unsupported
  | abort
  | posted
  | invalidData
  deriving DecidableEq, Repr

/-- The host port (R428, R430). -/
structure HostPort where
  wacbase : W64 := 0
  wbbase : W64 := 0
  reply : Option HostReply := none
  /-- a write that is being performed: window, offset, bytes (R431) -/
  pending : Option (Bool × Nat × List Byte) := none
  deriving DecidableEq, Repr

/-- A lane of a fabric port (R452, R453). -/
structure FLane where
  margin : BitVec 8 := 0
  ok : Bool := false
  retraining : Bool := false
  deriving DecidableEq, Repr

/-- A fabric port (R450, R452). -/
structure Port where
  lane0 : FLane := {}
  lane1 : FLane := {}
  lretry : BitVec 16 := 0
  warn : Bool := false
  degraded : Bool := false
  degt : BitVec 8 := 16
  warnt : BitVec 8 := 40
  admitted : Nat := 0
  heartbeats : Nat := 0
  deriving DecidableEq, Repr

/-- What an outgoing fabric transaction is (R444, R445, R446). -/
inductive OutOp where
  /-- a line fill, under the page that the requester's walk gave -/
  | fill (page : Page)
  /-- a team's store: entry `n` of its core's queue -/
  | store (n : Nat) (bytes : List (Nat × Byte))
  /-- a CPYP store (R322) -/
  | put (bytes : List (Nat × Byte))
  /-- a store of a drain or copy, or a completion word -/
  | write (bytes : List (Nat × Byte))
  | amo
  /-- RED or MDRAINA (R446) -/
  | update
  /-- the bytes of a launch slot (R349) -/
  | slot (bytes : List (Nat × Byte))
  deriving DecidableEq, Repr

/-- A transaction to a peer that is held, or sent and not yet accepted (R443, R449, R456). -/
structure OutTxn where
  dest : BitVec 12
  va : Nat
  cls : BitVec 2
  stamp : BitVec 32 := 0
  /-- the plane that carries it; none while it is held (R443, R450) -/
  plane : Option Nat := none
  team : Option Nat
  grid : Option Nat
  op : Nat
  what : OutOp
  /-- the data are poisoned (R288, R323) -/
  poisoned : Bool := false
  /-- the number of the agent write that it carries -/
  id : Option Nat := none
  /-- a fill whose plane has been removed, or whose region has been invalidated, since it was sent (R388, R447, R448) -/
  stale : Bool := false
  /-- a fill that speculation alone has asked for: it has no other effect (R190) -/
  spec : Bool := false
  deriving DecidableEq, Repr

/-- A record of the undo log (R457): the line as it stood. -/
structure UndoRec where
  va : Nat
  module : BitVec 12
  stamp : BitVec 32
  line : List Byte
  /-- the marks of its four granules (R402), and the address of its home memory -/
  marks : BitVec 4 := 0
  pa : Option Nat := none
  /-- the place of the record in the log -/
  slot : Nat
  deriving DecidableEq, Repr

/-- A peer's write that waits for the invalidation of copies on some planes (R447). -/
structure HeldWrite where
  src : BitVec 12
  stamp : BitVec 32
  va : Nat
  op : PeerOp
  /-- its CRC has failed twice (R435) -/
  bad : Bool := false
  deriving DecidableEq, Repr

/-- An invalidation of the copies of a region obtained through a plane: whether the meter has admitted it (R447, R450). -/
structure Inval where
  plane : Nat
  region : Nat
  sent : Bool
  deriving DecidableEq, Repr

/-- The fabric (R441 to R460). -/
structure Fabric where
  fmod : BitVec 12 := 0
  period : BitVec 32 := 2000
  oldest : BitVec 32 := 0
  current : BitVec 32 := 0
  undobase : W64 := 0
  undosize : BitVec 32 := 0
  target : BitVec 32 := 0
  dead : BitVec 12 := 0
  state : BitVec 2 := 0
  routes : Tab W64 := []
  ports : Vector Port 36 := Vector.replicate 36 {}
  out : List OutTxn := []
  undo : List UndoRec := []
  /-- planes through which a peer has obtained a copy, by region (R447) -/
  planes : Tab (List Nat) := []
  heldWrites : List HeldWrite := []
  deadModules : List Nat := []
  acked : BitVec 32 := 0
  /-- boundaries not yet acknowledged, the oldest first (R456) -/
  boundaries : List (BitVec 32) := []
  /-- planes through which an acknowledgement of an invalidation is to leave (R449, R450) -/
  acks : List Nat := []
  /-- by region of a peer: the planes whose switches name this module for it, a copy having been taken through them (R447) -/
  took : Tab (List Nat) := []
  /-- invalidations that a write of a region awaits (R447, R450) -/
  invals : List Inval := []
  /-- lines that a peer has written (R459) -/
  peerLines : List Loc := []
  deriving DecidableEq, Repr

/-- An AMO sent and not yet performed (R232). -/
structure Amo where
  team : Nat
  path : Nat
  op : Nat
  code : BitVec 3
  d : BitVec 6
  tag : BitVec 16
  ea : Nat
  operand : W64
  other : W64
  pc : Addr
  user : Bool
  /-- entries of the core's queue before this number for the line of `ea` go first (R232) -/
  fork : Nat := 0
  /-- sent to a peer -/
  sent : Bool := false
  /-- entries of the core's queue that the team's earlier loads have read (R226) -/
  seen : List Nat := []
  /-- entries of the core's queue that an acquire of the team orders before its later stores (R222, R224) -/
  after : List Nat := []
  /-- N of R52 -/
  ahead : Nat := 0
  deriving DecidableEq, Repr

/-- A commit request at a cluster's arbiter (R239). -/
structure Commit where
  team : Nat
  cluster : BitVec 6
  op : Nat
  d : BitVec 6
  /-- the CYCLE at which it reached the arbiter; none while step 1 of R239 lasts -/
  arrived : Option Nat := none
  deriving DecidableEq, Repr

/-- A line held for an escalated team (R242). -/
structure LineHold where
  team : Nat
  order : Nat
  tag : BitVec 16
  line : Nat
  deriving DecidableEq, Repr

/-- The kinds of the checker's self-checks (R259). -/
inductive CheckKind where
  | residue | parity
  deriving DecidableEq, Repr

/-- A self-check that fires twice at pass `pass` of a core's next checked instruction (R194, R259): the vector group whose
checker it is where the pass is a vector pass, and whether it is the load comparison's or that of VREDW's fold. -/
structure SelfCheck where
  pass : Nat
  group : BitVec 2 := 0
  load : Bool := false
  fold : Bool := false
  kind : CheckKind := .residue
  deriving DecidableEq, Repr

/-- The machine: one Tarcia 940 module. -/
structure State where
  /-- events in the order in which they happen: the schedule (log 1) -/
  agenda : List Instr
  /-- the team whose pass is taken next, by its key (R183, R358; log 1) -/
  cur : Option Nat
  cycle : W64
  freeIdx : Nat
  phys : Memory
  physPoison : List Nat
  vmem : Memory
  lines : Tab Line
  tlb : List TlbEntry
  walks : List Walk
  teams : Tab Team
  gangs : Tab Gang
  grids : Tab Grid
  cores : Tab CoreRegs
  clusters : Tab ClusterRegs
  dies : Tab DieRegs
  amos : List Amo
  commits : List Commit
  holds : List LineHold
  reds : List RedCmd
  /-- self-check firings to come, by core (R194) -/
  selfCheck : Tab SelfCheck
  front : FrontEnd
  relia : Relia
  journal : Journal
  power : PowerBlock
  security : Security
  hostPort : HostPort
  fabric : Fabric
  deriving DecidableEq, Repr

/-- Why the machine stops: reasons of the model itself; no rule of the spec stops the module. -/
inductive Fault where
  /-- raised by a team instruction executed while no running team is selected; `step` does that only if the agenda names
  a team instruction in place of an event. Safe: the machine stops where the device has no instruction to execute. -/
  | noTeam
  deriving DecidableEq, Repr

/-- Why the machine refuses a step. -/
inductive Refusal where
  /-- raised by the dispatch for an instruction without a meaning; safe: nothing is proved of it. -/
  | notModelled (mnemonic : String)
  deriving DecidableEq, Repr

/-- LLCOEFp at reset: C0 = 8p, C1 = 2p, C2 = p, C3 = 0 (R355). -/
def coefReset (p : Nat) : W64 := BitVec.ofNat 64 (p <<< 32 ||| (2 * p) <<< 16 ||| 8 * p)

/-- A die's registers at module reset (R355, R395, R399). -/
def DieRegs.reset : DieRegs :=
  { coef := #v[coefReset 0, coefReset 1, coefReset 2, coefReset 3, coefReset 4, coefReset 5, coefReset 6, coefReset 7] }

/-- The machine right after module reset: every register at its reset value, no team, gang or grid, every cluster
gated (R299), nothing cached, memory with nothing listed. -/
def State.reset : State :=
  { agenda := [], cur := none, cycle := 0, freeIdx := 0
    phys := [], physPoison := [], vmem := [], lines := [], tlb := [], walks := []
    teams := [], gangs := [], grids := [], cores := [], clusters := [], dies := []
    amos := [], commits := [], holds := [], reds := [], selfCheck := []
    front := {}, relia := {}, journal := {}, power := {}, security := {}, hostPort := {}, fabric := {} }

end Sys2Proof.Machine
end

