-- ==== Sys2Proof/Machine/Mem.lean ====
section
/-! DEFINITION. Memory behind the teams: physical memory, page walks and TLBs, the package's virtual caches, windows
onto scratchpads, poison (spec/18 R377 to R394, R402, spec/06 R163, spec/13 R310, spec/23 R444). -/

namespace Sys2Proof.Machine

/-- The key of a virtual byte under its tag ASID (R379). -/
def vkey (tag : BitVec 16) (va : Nat) : Nat := tag.toNat * 2 ^ 48 + va % 2 ^ 48

/-- The key of the 128-byte line of a virtual byte. -/
def lineKey (tag : BitVec 16) (va : Nat) : Nat := vkey tag va / 128

/-- The tag ASID of an access under an ASID (R379). -/
def tagOf (asid : BitVec 16) (va : Nat) : BitVec 16 := if va.testBit 47 then 0 else asid

/-- The home hash of R380 over `g` and a virtual address. -/
def homeHash (g va : Nat) : Nat :=
  let x := bitsOf va 47 9 ^^^ (g <<< 23)
  bitsOf x 5 0 ^^^ bitsOf x 11 6 ^^^ bitsOf x 17 12 ^^^ bitsOf x 23 18 ^^^ bitsOf x 29 24 ^^^ bitsOf x 35 30 ^^^
    bitsOf x 41 36

/-- The vault-controller TLB that serves a home-slice miss (R384). -/
def vaultTlb (tag : BitVec 16) (va : Nat) : Nat :=
  let h := homeHash tag.toNat va
  64 * (h % 4) + 4 * (h / 4) + bitsOf va 17 16

/-- The fabric egress TLB (R384). -/
def egressTlb : Nat := 268

/-- A TLB is that of a second-tier controller. -/
def isIoTlb (tlb : Nat) : Bool := 256 ≤ tlb && tlb < 268

/-- The translations that a TLB holds (R384). -/
def tlbCapacity (tlb : Nat) : Nat := if tlb < 256 then 512 else if isIoTlb tlb then 2048 else 4096

/-- Whether a local physical address has memory (R377). -/
def hasMemory (pa : Nat) : Bool := pa < 2 ^ 37 || (2 ^ 40 ≤ pa && pa < 2 ^ 41)

/-- The compute die of a stacked-DRAM address (R377). -/
def dieOf (pa : Nat) : Nat := bitsOf pa 36 35

/-- The channel of a second-tier address (R377): units of 4 KiB over the 12 channels, in ascending order. -/
def channelOf (pa : Nat) : Nat := (pa - 2 ^ 40) / 4096 % 12

/-- The home die of a virtual address under its tag ASID (R380). -/
def homeDie (tag : BitVec 16) (va : Nat) : Nat := homeHash tag.toNat va % 4

/-- The root table of the walks (R385, R389). -/
def Relia.rootTable (r : Relia) : Nat := r.asidtab.toNat % 2 ^ 48 / 4096 * 4096

/-- The TLB of the I/O die's agents (R384): of the second-tier controller that the root table's channel numbers. -/
def State.ioTlb (s : State) : Nat :=
  let root := s.relia.rootTable
  256 + (if 2 ^ 40 ≤ root then channelOf root else Config.ioController root % 12)

/-- A core's registers; a core that nothing has changed stands at its reset values. -/
def State.core (s : State) (c : Nat) : CoreRegs := (Tab.find s.cores c).getD {}
def State.setCore (s : State) (c : Nat) (r : CoreRegs) : State := { s with cores := Tab.put s.cores c r }
def State.cluster (s : State) (c : Nat) : ClusterRegs := (Tab.find s.clusters c).getD {}
def State.setCluster (s : State) (c : Nat) (r : ClusterRegs) : State := { s with clusters := Tab.put s.clusters c r }
def State.die (s : State) (d : Nat) : DieRegs := (Tab.find s.dies d).getD DieRegs.reset
def State.setDie (s : State) (d : Nat) (r : DieRegs) : State := { s with dies := Tab.put s.dies d r }

/-- Whether a physical granule lies in a layer that is offline (R400). -/
def State.offlineAt (s : State) (granule : Nat) : Bool :=
  granule * 32 < 2 ^ 37 && (s.die (dieOf (granule * 32))).offline.contains (Config.layerOf granule)

/-- Whether a physical granule is poisoned (R400, R402). -/
def State.physBad (s : State) (granule : Nat) : Bool := s.physPoison.contains granule || s.offlineAt granule

/-- A write of the host is being performed: later writes, those of registers among them, come after it (R335, R431). -/
def State.hostWriting (s : State) : Bool := s.hostPort.pending.isSome

/-- Registers outside the security block: they answer nothing while a firmware stage has failed (R437), and a write of one
waits for the host's earlier writes (R431). -/
def State.registersOpen (s : State) : Bool := !s.security.bootFailed && !s.hostWriting

/-! ### Page walks -/

/-- What an access needs of its page's bits (R386). -/
inductive Need where
  | load | store | fetch
  deriving DecidableEq, Repr

/-- The bits of a page or line grant an access (R387). -/
def grants (r w x u : Bool) (n : Need) (user : Bool) : Bool :=
  (match n with | .load => r | .store => w | .fetch => x) && (!user || u)

/-- How a translation ends: a page, a protection refusal, or a fault record's reason (R387). -/
inductive Xlat where
  | page (p : Page)
  | protect
  | fault (reason : Nat)
  deriving DecidableEq, Repr

/-- The levels of a walk (R385): index bits, whether a leaf is allowed, whether it is required, and the alignment of
the next level's table. -/
def walkLevels : List (Nat × Nat × Bool × Bool × Nat) :=
  [(47, 39, false, false, 4096), (38, 30, true, false, 4096), (29, 21, true, false, 256), (20, 16, true, true, 1)]

/-- Walk from a table (R385 to R387). -/
def State.walkFrom (s : State) (va : Nat) : List (Nat × Nat × Bool × Bool × Nat) → Nat → Xlat
  | [], _ => .fault 1
  | (hi, lo, leafOk, leafOnly, align) :: rest, table =>
    let at_ := table + 8 * bitsOf va hi lo
    if s.physBad (at_ / 32) then .fault 2
    else
      let e := Memory.readLE s.phys at_ 8
      let addr := e % 2 ^ 52 / 256 * 256
      if !e.testBit 0 then .fault 0
      else if e.testBit 7 then .fault 1
      else if e.testBit 1 then
        let m := e / 2 ^ 52
        if !leafOk || addr % 2 ^ lo != 0 || (m == s.fabric.fmod.toNat && !hasMemory addr) then .fault 1
        else .page { va := va % 2 ^ 48 / 2 ^ lo * 2 ^ lo, log2 := lo, pa := m * 2 ^ 52 + addr
                     r := e.testBit 2, w := e.testBit 3, x := e.testBit 4, u := e.testBit 5, c := e.testBit 6 }
      else if leafOnly || e / 2 ^ 52 != 0 || addr % align != 0 then .fault 1
      else s.walkFrom va rest addr

/-- A walk from the root table (R385). -/
def State.walk (s : State) (tag : BitVec 16) (va : Nat) : Xlat :=
  let at_ := s.relia.rootTable + 8 * tag.toNat
  if s.physBad (at_ / 32) then .fault 2
  else
    let e := Memory.readLE s.phys at_ 8
    if !e.testBit 0 then .fault 0
    else if bitsOf e 11 1 != 0 || e / 2 ^ 52 != 0 then .fault 1
    else s.walkFrom va walkLevels (e / 4096 * 4096)

/-- The identity rule of I/O-die agents while ASIDTAB.EN is 0 (R465). -/
def identityPage (s : State) (va : Nat) : Xlat :=
  if hasMemory (va % 2 ^ 48) then
    let base := va % 2 ^ 48 / 2 ^ 16 * 2 ^ 16
    .page { va := base, log2 := 16, pa := s.fabric.fmod.toNat * 2 ^ 52 + base
            r := true, w := true, x := false, u := false, c := false }
  else .protect

/-- The translation a TLB holds for an address (R388). -/
def State.tlbFind (s : State) (tlb : Nat) (tag : BitVec 16) (va : Nat) : Option Page :=
  (s.tlb.find? fun e => e.tlb == tlb && e.tag == tag && va % 2 ^ 48 / 2 ^ e.page.log2 == e.page.va / 2 ^ e.page.log2).map
    (·.page)

/-- Whether a page that names a peer may be used (R444): tag ASID 0 and a valid route. -/
def State.peerOk (s : State) (tag : BitVec 16) (p : Page) : Bool :=
  tag == 0 && ((Tab.find s.fabric.routes (p.pa / 2 ^ 52)).getD 0).getLsbD 63

/-- The page that maps an address at a TLB, whatever it grants (R385, R388). -/
def State.pageAt (s : State) (tlb : Nat) (tag : BitVec 16) (va : Nat) : Option Page :=
  if !s.relia.asidtab.getLsbD 0 then none
  else
    match s.tlbFind tlb tag va with
    | some p => some p
    | none => match s.walk tag va with
      | .page p => some p
      | _ => none

/-- Translate an access at a TLB (R384 to R388, R444, R465): the answer, and the page to keep when it came of a walk; `ident` is
set for an I/O-die agent under ASID 0, which the identity rule serves while EN is 0. -/
def State.translate (s : State) (tlb : Nat) (tag : BitVec 16) (va : Nat) (need : Need) (user ident : Bool) :
    Xlat × Option Page :=
  let judge (p : Page) : Xlat :=
    if !grants p.r p.w p.x p.u need user then .protect
    else if p.pa / 2 ^ 52 != s.fabric.fmod.toNat && !s.peerOk tag p then .protect
    else .page p
  if !s.relia.asidtab.getLsbD 0 then
    if ident then
      match identityPage s va with
      | .page p => (judge p, none)
      | r => (r, none)
    else (.fault 0, none)
  else
    match s.tlbFind tlb tag va with
    | some p => (judge p, none)
    | none =>
      match s.walk tag va with
      | .page p => match judge p with
        | .page q => (.page q, some q)
        | r => (r, none)
      | r => (r, none)

/-- Keep a walked translation in its TLB (R387); a full TLB gives one up, which a free value names (R384; log 12). -/
def State.keepTlb (s : State) (tlb : Nat) (tag : BitVec 16) : Option Page → State
  | none => s
  | some p =>
    let mine := s.tlb.filter (·.tlb == tlb)
    let kept :=
      if mine.length < tlbCapacity tlb then s.tlb
      else (mine[Config.choice s.freeIdx % mine.length]?).elim s.tlb s.tlb.erase
    { s with tlb := kept ++ [{ tlb := tlb, tag := tag, page := p }] }

/-! ### Windows -/

/-- The window that serves a global address, with its gang (R310, R311): windows that open or lie dormant serve none. -/
def findWindowIn (tag : BitVec 16) (va : Nat) : List (Nat × Gang) → Option (Nat × Window)
  | [] => none
  | (k, g) :: t =>
    match g.windows.find? fun w =>
      w.tag == tag && decide (w.base ≤ va % 2 ^ 48) && decide (va % 2 ^ 48 < w.base + w.len) &&
        (w.stat == .standing || w.stat == .closing) with
    | some w => some (k, w)
    | none => findWindowIn tag va t

def State.findWindow (s : State) (tag : BitVec 16) (va : Nat) : Option (Nat × Window) := findWindowIn tag va s.gangs

/-- The core that owns the pool of a group. -/
def State.poolCore (s : State) (g grp : Nat) : Option Nat :=
  (Tab.find s.gangs g).bind fun gg => (Tab.find gg.coreOf grp).map fun c => 4 * gg.cluster.toNat + c

/-- The die at which an address is accessed: that of the window's owner core, else its home die (R375, R381). -/
def State.dieAt (s : State) (tag : BitVec 16) (va : Nat) : Nat :=
  match (s.findWindow tag va).bind fun w => s.poolCore w.1 w.2.group with
  | some core => core / 64
  | none => homeDie tag va

/-- The location of a global byte: the owner's pool through a window, or the virtual byte (R163, R381). -/
def State.locOf (s : State) (tag : BitVec 16) (va : Nat) : Loc :=
  match s.findWindow tag va with
  | some (g, w) => .pool g w.group (w.off + (va % 2 ^ 48 - w.base))
  | none => .virt tag (va % 2 ^ 48)

/-- The global address of a location: that of the window that holds it, for a scratchpad byte (R310). -/
def State.globalOf (s : State) : Loc → Option (BitVec 16 × Nat)
  | .virt tag va => some (tag, va)
  | .pool g grp off =>
    (Tab.find s.gangs g).bind fun gg =>
      (gg.windows.find? fun w =>
        w.group == grp && decide (w.off ≤ off) && decide (off < w.off + w.len) &&
          (w.stat == .standing || w.stat == .closing)).map fun w => (w.tag, w.base + (off - w.off))

/-- A location `n` bytes on. -/
def Loc.add : Loc → Nat → Loc
  | .virt tag va, n => .virt tag (va + n)
  | .pool g grp off, n => .pool g grp (off + n)

/-- The 128-byte line of a location, and the place in it. -/
def Loc.line : Loc → Loc
  | .virt tag va => .virt tag (va / 128 * 128)
  | .pool g grp off => .pool g grp (off / 128 * 128)

def Loc.inLine : Loc → Nat
  | .virt _ va => va % 128
  | .pool _ _ off => off % 128

/-! ### Held lines (R242) -/

/-- The hold that stands on a line (R242). -/
def State.holdOn (s : State) (tag : BitVec 16) (va : Nat) : Option LineHold :=
  s.holds.find? fun h => h.tag == tag && h.line == va % 2 ^ 48 / 128

/-- A line held for another team than `k`. What the holder itself does to the line waits for nothing: R242 does not say that
its own stores do (DESIGN CHOICE, log 105). -/
def State.heldAgainst (s : State) (k : Option Nat) (tag : BitVec 16) (va : Nat) : Bool :=
  match s.holdOn tag va with
  | none => false
  | some h => some h.team != k

/-- The line of a location is held for another team than `k`: a store to it waits (R242). -/
def State.heldFrom (s : State) (k : Nat) (l : Loc) : Bool := (s.globalOf l).any fun a => s.heldAgainst (some k) a.1 a.2

/-! ### Bytes and poison at a location -/

def State.poolAt (s : State) (g grp : Nat) : Pool :=
  match Tab.find s.gangs g with
  | none => {}
  | some gg => (Tab.find gg.pools grp).getD {}

def State.setPool (s : State) (g grp : Nat) (p : Pool) : State :=
  match Tab.find s.gangs g with
  | none => s
  | some gg => { s with gangs := Tab.put s.gangs g { gg with pools := Tab.put gg.pools grp p } }

/-- A coherent byte: cached line or pool. -/
def State.readLoc (s : State) : Loc → Byte
  | .virt tag va => Memory.read s.vmem (vkey tag va)
  | .pool g grp off => Memory.read (s.poolAt g grp).mem off

/-- Whether the granule of a location is poisoned (R402). -/
def State.poisonLoc (s : State) : Loc → Bool
  | .virt tag va =>
    match Tab.find s.lines (lineKey tag va) with
    | none => false
    | some l => l.poison.getLsbD (va % 128 / 32)
  | .pool g grp off => (s.poolAt g grp).poison.contains (off / 32)

/-- Granule `i` of a line is written whole by a store's bytes. -/
def coversGranule (bytes : List (Nat × Byte)) (i : Nat) : Bool :=
  (List.range 32).all fun k => bytes.any fun b => b.1 == 32 * i + k

/-- The poison mask of a line after a store (R402). -/
def clearPoison (bytes : List (Nat × Byte)) (p : BitVec 4) : BitVec 4 :=
  p &&& ~~~((if coversGranule bytes 0 then 1#4 else 0) ||| (if coversGranule bytes 1 then 2#4 else 0) |||
    (if coversGranule bytes 2 then 4#4 else 0) ||| (if coversGranule bytes 3 then 8#4 else 0))

/-- Write bytes, at offsets from a key, into a memory. -/
def Memory.writeAt (m : Memory) (base : Nat) : List (Nat × Byte) → Memory
  | [] => m
  | (o, b) :: t => Memory.writeAt (Memory.write m (base + o) b) base t

/-- A store of bytes of one line, at the line's location (R188, R402). -/
def State.storeLine (s : State) (line : Loc) (bytes : List (Nat × Byte)) : State :=
  match line with
  | .virt tag va =>
    { s with
      vmem := Memory.writeAt s.vmem (vkey tag va) bytes
      lines := Tab.modify s.lines (lineKey tag va) fun l =>
        { l with dirty := true, poison := clearPoison bytes l.poison } }
  | .pool g grp off =>
    let p := s.poolAt g grp
    s.setPool g grp
      { mem := Memory.writeAt p.mem off bytes
        poison := p.poison.filter fun n =>
          !(n / 4 == off / 128 && coversGranule bytes (n % 4)) }

/-! ### Filters and directories (R383) -/

/-- A core holds a line in its cache region or its checker cache. -/
def CoreRegs.holdsLine (c : CoreRegs) (key : Nat) : Bool := c.l1.any (·.key == key) || c.ckc.contains key

/-- The filter of a cluster: its cores that hold a line. -/
def State.filterOf (s : State) (cl key : Nat) : List Nat :=
  (s.cores.filter fun e => e.1 / 4 == cl && e.2.holdsLine key).map (·.1)

/-- The directory entry of a 512-byte region at its home die: the clusters that hold a line of it. -/
def State.directory (s : State) (region : Nat) : List Nat :=
  ((s.cores.filter fun e => e.2.l1.any (·.key / 4 == region) || e.2.ckc.any (· / 4 == region)).map (·.1 / 4)).eraseDups

/-- A line is removed from the caches of a core. -/
def State.uncache (s : State) (core key : Nat) : State :=
  s.setCore core
    { s.core core with l1 := (s.core core).l1.filter (·.key != key), ckc := (s.core core).ckc.filter (· != key) }

/-- A write of the core `core`, or of another agent, probes the cores that the region's entry and their filters name (R383). -/
def State.probe (s : State) (core : Option Nat) (key : Nat) : State :=
  ((s.directory (key / 4)).flatMap fun cl => (s.filterOf cl key).filter (some · != core)).foldl (fun s c => s.uncache c key) s

/-- A write to a location by the core `core`, or by another agent, probes the other holders of its line. -/
def State.probeAt (s : State) (core : Option Nat) : Loc → State
  | .virt tag va => s.probe core (lineKey tag va)
  | .pool .. => s

/-! ### Stores -/

/-- A running DET grid, for which the last writers of bytes are noted (R373). -/
def Grid.watches (g : Grid) : Bool := g.packet.flags.getLsbD 0 && g.stat == .started

/-- Note the last writer of bytes for every running DET grid (R373): bytes written by an agent outside a grid are listed
in it, bytes the grid writes are not. -/
def State.noteWrite (s : State) (who : Option Nat) (line : Loc) (bytes : List (Nat × Byte)) : State :=
  if s.grids.any fun e => e.2.watches then
    let locs := bytes.map fun b => line.add b.1
    { s with grids := s.grids.map fun e =>
        if !e.2.watches then e
        else
          let kept := e.2.outside.filter fun l => !locs.contains l
          (e.1, { e.2 with outside := if who == some e.2.seq then kept else kept ++ locs }) }
  else s

/-- A line of a peer answers: which of its bytes were last written outside each running DET grid its home alone knows, a free
value (R373; log 113). -/
def State.homeWrites (s : State) (line : Loc) : State :=
  if s.grids.any fun e => e.2.watches then
    { s with grids := s.grids.map fun e =>
        if !e.2.watches then e
        else
          let wrote := Config.peerWrote s.freeIdx e.2.seq
          let locs := ((List.range 128).filter (wrote.getLsbD ·)).map line.add
          (e.1, { e.2 with outside := (e.2.outside.filter fun l => !locs.contains l) ++ locs }) }
  else s

/-- A store performed at its location by an agent: a grid's, by its sequence number, or one outside every grid; from the
cache region of the core `core`, or at L2. -/
def State.performStore (s : State) (who : Option Nat) (line : Loc) (bytes : List (Nat × Byte))
    (core : Option Nat := none) : State :=
  ((s.probeAt core line).storeLine line bytes).noteWrite who line bytes

/-- Mark a granule of a location poisoned (R402). -/
def State.setPoison (s : State) : Loc → State
  | .virt tag va =>
    { s with lines := Tab.modify s.lines (lineKey tag va) fun l =>
        { l with dirty := true, poison := l.poison ||| (1#4 <<< (va % 128 / 32)) } }
  | .pool g grp off =>
    let p := s.poolAt g grp
    s.setPool g grp { p with poison := insertNat (off / 32) p.poison }

/-- Poison the granules that a store's bytes touch (R402, R435). -/
def State.poisonBytes (s : State) (line : Loc) (bytes : List (Nat × Byte)) : State :=
  bytes.foldl (fun s b => s.setPoison (line.add b.1)) s

/-! ### Lines -/

/-- Copy `n` bytes between memories; the destination range is replaced. -/
def Memory.copy (src : Memory) (a : Nat) (dst : Memory) (b n : Nat) : Memory :=
  (src.filter fun c => a ≤ c.1 && c.1 < a + n).foldl (fun m c => Memory.write m (b + (c.1 - a)) c.2) (Memory.clear dst b n)

/-- The migration counter of a page at a line transfer (R394); a write to a layer that is offline is discarded (R400). -/
def State.countTransfer (s : State) (pa : Nat) (c : Bool) : State :=
  if s.relia.mcbase.getLsbD 0 && c then
    let i := if pa < 2 ^ 37 then bitsOf pa 36 16 else 2 ^ 21 + bitsOf pa 39 16
    let at_ := s.relia.mcbase.toNat % 2 ^ 48 / 4096 * 4096 + 2 * i
    let v := Memory.readLE s.phys at_ 2
    if s.offlineAt (at_ / 32) then s else { s with phys := Memory.writeLE s.phys at_ 2 (min (v + 1) 0xFFFF) }
  else s

/-- Fill a line of a local page from memory into L2 (R382, R394). -/
def State.fillLine (s : State) (tag : BitVec 16) (va : Nat) (p : Page) : State :=
  let base := va % 2 ^ 48 / 128 * 128
  let pa := p.pa % 2 ^ 52 + (base - p.va)
  let bad (i : Nat) : BitVec 4 := if s.physBad (pa / 32 + i) then 1#4 <<< i else 0
  let s := { s with
    vmem := Memory.copy s.phys pa s.vmem (vkey tag base) 128
    lines := Tab.put s.lines (lineKey tag va)
      { pa := p.pa / 2 ^ 52 * 2 ^ 52 + pa, r := p.r, w := p.w, x := p.x, u := p.u, c := p.c
        poison := bad 0 ||| bad 1 ||| bad 2 ||| bad 3 } }
  s.countTransfer pa p.c

/-- Poison of the granules that a write-back carries (R402); a granule of an offline layer keeps its mark (R400). -/
def poisonAfter (s : State) (pa : Nat) (p : BitVec 4) : List Nat :=
  let kept := s.physPoison.filter fun g => g < pa / 32 || pa / 32 + 4 ≤ g
  [0, 1, 2, 3].foldl (fun l i => if p.getLsbD i || s.offlineAt (pa / 32 + i) then insertNat (pa / 32 + i) l else l) kept

/-- Copy the bytes of a line at key `from_` of a memory to local memory, with its poison (R382, R400, R402). -/
def State.lineToPhys (s : State) (src : Memory) (from_ pa : Nat) (poison : BitVec 4) (c : Bool) : State :=
  let copyOne (m : Memory) (i : Nat) : Memory :=
    if s.offlineAt (pa / 32 + i) then m else Memory.copy src (from_ + 32 * i) m (pa + 32 * i) 32
  let s := { s with
    phys := copyOne (copyOne (copyOne (copyOne s.phys 0) 1) 2) 3
    physPoison := poisonAfter s pa poison }
  s.countTransfer pa c

/-- Write a cached line back to its home memory if it is dirty (R166, R382). -/
def State.writeBack (s : State) (key : Nat) : State :=
  match Tab.find s.lines key with
  | none => s
  | some l =>
    if l.dirty then
      let s := s.lineToPhys s.vmem (key * 128) (l.pa % 2 ^ 52) l.poison l.c
      let clean (x : L1Line) : L1Line := if x.key == key then { x with dirty := false } else x
      { s with
        lines := Tab.put s.lines key { l with dirty := false }
        cores := s.cores.map fun e => (e.1, { e.2 with l1 := e.2.l1.map clean }) }
    else s

/-- Remove a line from every cache of the package, its data discarded. -/
def State.dropLine (s : State) (key : Nat) : State :=
  { s with
    lines := Tab.erase s.lines key
    vmem := Memory.clear s.vmem (key * 128) 128
    cores := s.cores.map fun e =>
      (e.1, { e.2 with l1 := e.2.l1.filter (·.key != key), ckc := e.2.ckc.filter (· != key) }) }

/-- Write a line back and remove every copy (CINV, eviction). -/
def State.evictLine (s : State) (key : Nat) : State := (s.writeBack key).dropLine key

/-- The lines that stand in the L2 slice of a line: 8 MiB, 65,536 lines (R2). -/
def State.sliceLines (s : State) (key : Nat) : List Nat :=
  let at_ (k : Nat) : Nat := vaultTlb (BitVec.ofNat 16 (k / 2 ^ 41)) (k % 2 ^ 41 * 128) / 4
  (s.lines.map (·.1)).filter fun k => at_ k == at_ key

/-- A slice above its capacity gives up a line, which a free value names (R2, R382; log 12). The line leaves the caches of every
core too: the spec does not say whether L2 holds what they hold (DESIGN CHOICE, log 12). -/
def State.fitSlice (s : State) (key : Nat) : State :=
  let full := s.sliceLines key
  if full.length ≤ 65536 then s else s.evictLine (full.getD (Config.choice s.freeIdx % full.length) 0)

/-- At the end of a step every slice is within its capacity: what has been made present within a step serves that step
(DESIGN CHOICE, log 12). -/
def State.fitSlices (s : State) : State :=
  if s.lines.length ≤ 65536 then s else s.lines.foldl (fun s e => s.fitSlice e.1) s

/-- How the line of an access stands at a level behind the core: ready, held by a withdrawal (R313), homed on a peer,
refused, or faulting with a reason. -/
inductive LineAt where
  | ready (s : State) (loc : Loc)
  | held
  | peer (s : State) (p : Page)
  | protect
  | fault (reason : Nat)
  deriving DecidableEq, Repr

/-- Make the line of an address present for an engine or an I/O-die agent, filling it at a miss (R382, R384, R387):
the translation is made at once; `ident` as for `State.translate`. -/
def State.reach (s : State) (tlb : Nat) (tag : BitVec 16) (va : Nat) (need : Need) (user ident : Bool) : LineAt :=
  match s.findWindow tag va with
  | some (g, w) =>
    if w.stat == .closing then .held
    else
      let ok := match Tab.find w.home ((va % 2 ^ 48 - w.base) / 128) with
        | none => true
        | some l => grants l.r l.w l.x l.u need user
      if ok then .ready s (.pool g w.group (w.off + (va % 2 ^ 48 - w.base))) else .protect
  | none =>
    let viaPage (p : Page) (s : State) : LineAt :=
      if p.pa / 2 ^ 52 == s.fabric.fmod.toNat then .ready (s.fillLine tag va p) (.virt tag (va % 2 ^ 48))
      else .peer s p
    match Tab.find s.lines (lineKey tag va) with
    | some l =>
      if !grants l.r l.w l.x l.u need user then .protect
      else if l.pa / 2 ^ 52 == s.fabric.fmod.toNat || need != .store then .ready s (.virt tag (va % 2 ^ 48))
      else
        .peer s { va := va % 2 ^ 48 / 128 * 128, log2 := 7, pa := l.pa, r := l.r, w := l.w, x := l.x, u := l.u, c := l.c }
    | none =>
      match s.translate tlb tag va need user ident with
      | (.page p, kept) => viaPage p (s.keepTlb tlb tag kept)
      | (.protect, _) => .protect
      | (.fault r, _) => .fault r

/-- The planes through which a peer holds a copy of a region (R447). -/
def State.planesOf (s : State) (tag : BitVec 16) (va : Nat) : List Nat :=
  (Tab.find s.fabric.planes (vkey tag va / 512)).getD []

end Sys2Proof.Machine
end

