-- ==== Sys2Proof/Machine/Region.lean ====
section
/-! DEFINITION. The cache region of a core (spec/09 R209 to R215) and what tracks its lines: the cluster filters and the die
directories (spec/18 R383). The bytes stand in `State.vmem` once for the whole package: which cache holds a line decides no
value that an agent reads. -/

namespace Sys2Proof.Machine

/-- NS: the sets of a cache region (R212). -/
def setsOf (reg acc : Nat) : Nat := (128 - reg - acc) * 64

/-- Ways of set `k` that `n` lines from base `b` pin (R214). -/
def pinsAt (ns b n k : Nat) : Nat := n / ns + (if (k + ns - b % ns) % ns < n % ns then 1 else 0)

/-- Pinned lines of a gang on each of its cores (R214). -/
def Packet.lines (p : Packet) : Nat := (p.scratch + 127) / 128

/-- The ways of a set of a core that scratchpad lines pin (R214, R215). -/
def State.pinnedWays (s : State) (core ns k : Nat) : Nat :=
  s.gangs.foldl (fun n e =>
    match Tab.find e.2.bases (core % 4) with
    | none => n
    | some b =>
      if core / 4 == e.2.cluster.toNat && (e.2.stat == .placed || e.2.stat == .resident) then
        n + pinsAt ns b (((Tab.find s.grids e.2.seq).map (·.packet.lines)).getD 0) k
      else n) 0

/-- Ways of a set that are free for lines: scratchpad lines pin some (R214), and the save reserve, while it stands, has one way
of sets 0 to 31: R201 does not say which 32 lines it takes (DESIGN CHOICE, log 107). -/
def State.waysOf (s : State) (core ns k : Nat) : Nat :=
  8 - s.pinnedWays core ns k - (if (s.core core).reserve && decide (k < 32) then 1 else 0)

/-- A core uses a line in the cache region (R213): a hit, or a miss whose victim is the least recently used of the set's
`ways`. A dirty victim goes to L2, which holds the line for the package. -/
def CoreRegs.useLine (c : CoreRegs) (set ways key : Nat) (writable dirty : Bool) : CoreRegs :=
  match c.l1.find? (·.key == key) with
  | some l =>
    { c with l1 := c.l1.filter (·.key != key) ++ [{ l with writable := l.writable || writable, dirty := l.dirty || dirty }] }
  | none =>
    let mine := c.l1.filter (·.set == set)
    if ways == 0 then c
    else
      let kept := if c.l1.length < ways || mine.length < ways then c.l1 else mine.head?.elim c.l1 c.l1.erase
      { c with l1 := kept ++ [{ set := set, key := key, writable := writable, dirty := dirty }] }

/-- A line enters, or is used in, the cache region of a core. -/
def State.useLine (s : State) (core key : Nat) (writable dirty : Bool) : State :=
  let c := s.core core
  let ns := setsOf c.poolReg c.poolAcc
  let set := Config.setIndex ns key % ns
  s.setCore core (c.useLine set (s.waysOf core ns set) key writable dirty)

/-- The lines that a cache region keeps when sets are left `ways` each (R215): the most recently used. -/
def keepWays (ways : Nat → Nat) : List L1Line → List L1Line
  | [] => []
  | l :: rest =>
    let kept := keepWays ways rest
    if (kept.filter (·.set == l.set)).length < ways l.set then l :: kept else kept

/-- A core takes a partition (R211): the lines of the sets that the new layout removes are written back and invalidated. R211
does not say which lines these are, since R213's sets change with NS: those of the sets numbered NS and above go, and a kept
line keeps its set until it is used anew (DESIGN CHOICE, log 107). -/
def CoreRegs.relayout (c : CoreRegs) (reg acc : Nat) : CoreRegs :=
  { c with poolReg := reg, poolAcc := acc, l1 := c.l1.filter fun l => l.set < setsOf reg acc }

/-- Lines leave the cache region of a core for the scratchpad lines that are pinned there, or for the save reserve (R201, R215). -/
def State.pinLines (s : State) (core : Nat) : State :=
  let c := s.core core
  let ns := setsOf c.poolReg c.poolAcc
  s.setCore core { c with l1 := keepWays (s.waysOf core ns) c.l1 }

/-! ### Filters and directories (R383) -/

/-- The cluster, if any, that the entry records as holding a line of the region writable. -/
def State.dirWriter (s : State) (region : Nat) : Option Nat :=
  (s.cores.find? fun e => e.2.l1.any fun l => l.key / 4 == region && l.writable).map (·.1 / 4)

/-- A read of a line by core `core`: a cluster that the entry records as holding one writable is probed, and its cores hold the
line shared from then on; what was dirty goes to L2. -/
def State.probeRead (s : State) (core key : Nat) : State :=
  match s.dirWriter (key / 4) with
  | none => s
  | some cl =>
    let shared (l : L1Line) : L1Line := if l.key == key then { l with writable := false, dirty := false } else l
    { s with cores := s.cores.map fun e =>
        if e.1 / 4 == cl && e.1 != core then (e.1, { e.2 with l1 := e.2.l1.map shared }) else e }

/-- An entry of a filter is evicted: the line leaves the cores concerned. -/
def State.evictFilter (s : State) (cl key : Nat) : State := (s.filterOf cl key).foldl (fun s c => s.uncache c key) s

/-- A directory entry is evicted: the region leaves every recorded cluster, to be held by L2 alone. -/
def State.evictEntry (s : State) (region : Nat) : State :=
  (s.directory region).foldl (fun s cl => [0, 1, 2, 3].foldl (fun s i => s.evictFilter cl (4 * region + i)) s) s

/-- The home die of a region, and its set of the 16-way directory there: the hash is not given (log 12). -/
def regionDie (region : Nat) : Nat := homeDie (BitVec.ofNat 16 (region / 2 ^ 39)) (region % 2 ^ 39 * 512)
def regionSet (region : Nat) : Nat := Config.setIndex 131072 region % 131072

/-- The entries of the directory of a die, 2,097,152 at most, in 16 ways of 131,072 sets (R383). -/
def State.entriesOf (s : State) (die : Nat) : List Nat :=
  ((s.cores.flatMap fun e => e.2.l1.map (·.key / 4) ++ e.2.ckc.map (· / 4)).eraseDups).filter (regionDie · == die)

/-- A full set of a directory gives up an entry, which a free value names, and not that of the line which has come (R383;
log 12). -/
def State.fitEntry (s : State) (key : Nat) : State :=
  let all := s.entriesOf (regionDie (key / 4))
  if all.length ≤ 16 then s
  else
    let full := all.filter fun r => regionSet r == regionSet (key / 4)
    let others := full.filter (· != key / 4)
    if full.length ≤ 16 then s else s.evictEntry (others.getD (Config.choice s.freeIdx % others.length) 0)

/-- The entry of a region records one cluster that holds a line of it writable: before `core` does, the cores of another cluster
hold the region's lines shared, and what was dirty goes to L2 (R383). -/
def State.claimRegion (s : State) (core key : Nat) : State :=
  let shared (l : L1Line) : L1Line := if l.key / 4 == key / 4 then { l with writable := false, dirty := false } else l
  match s.dirWriter (key / 4) with
  | none => s
  | some cl =>
    if cl == core / 4 then s
    else { s with cores := s.cores.map fun e => if e.1 / 4 == cl then (e.1, { e.2 with l1 := e.2.l1.map shared }) else e }

/-- A core obtains a line in its cache region, writable where it is to store to it (R188, R383). -/
def State.obtainLine (s : State) (core key : Nat) (write dirty : Bool) : State :=
  let s := if write then (s.probe (some core) key).claimRegion core key else s.probeRead core key
  (s.useLine core key write dirty).fitEntry key

end Sys2Proof.Machine
end

