-- ==== Sys2Proof/Machine/Egress.lean ====
section
/-! DEFINITION. The fabric egress (spec/23 R441 to R450, R456): planes, the class-0 meter, transactions on their way to
a peer; and the reads and writes of I/O-die agents (spec/18 R384, R465). -/

namespace Sys2Proof.Machine

/-- A port is up while a lane is in use (R452, R453). -/
def Port.up (p : Port) : Bool := p.lane0.ok || p.lane1.ok

/-- Class-0 bytes that a port admits in a 10 µs window (R450). -/
def Port.budget (p : Port) : Nat := if p.lane0.ok && p.lane1.ok then 56000 else 28000

def State.port (s : State) (p : Nat) : Port := s.fabric.ports.getD p {}
def State.modPort (s : State) (p : Nat) (f : Port → Port) : State :=
  { s with fabric := { s.fabric with ports := s.fabric.ports.setIfInBounds p (f (s.port p)) } }

/-- ROUTEm (R442). -/
def State.route (s : State) (m : Nat) : W64 := (Tab.find s.fabric.routes m).getD 0

/-- The usable planes to a module, ascending (R443). -/
def State.usable (s : State) (m : Nat) : List Nat :=
  (List.range 36).filter fun p => (s.route m).getLsbD p && (s.port p).up

/-- The plane of a region's transactions to a module (R443). -/
def State.planeFor (s : State) (m va : Nat) : Option Nat :=
  let u := s.usable m
  if u.isEmpty then none else u[homeHash m va % u.length]?

/-- Transactions of the region that another plane still carries (R443). -/
def State.onOldPlane (s : State) (x : OutTxn) (plane : Nat) : Bool :=
  s.fabric.out.any fun y => y.dest == x.dest && y.va / 512 == x.va / 512 && y.plane.isSome && y.plane != some plane

/-- An earlier held transaction of the same region and class: order within a class is kept (R443). -/
def State.heldBefore (x : OutTxn) (l : List OutTxn) : Bool :=
  l.any fun y => y.dest == x.dest && y.va / 512 == x.va / 512 && y.cls == x.cls && y.plane.isNone

/-- The bytes of a class-0 packet, at most 256 (R450; log 21). -/
def State.packetBytes (s : State) : Nat := Config.packetBytes s.freeIdx % 257

/-- A class-0 packet leaves through a port: none where the meter does not let it pass (R449, R450). -/
def State.passMeter (s : State) (plane : Nat) : Option State :=
  if (s.port plane).budget < (s.port plane).admitted + s.packetBytes then none
  else some (s.modPort plane fun q => { q with admitted := q.admitted + s.packetBytes })

/-- Send a transaction now, if a plane carries it and the meter admits it: the transaction as it travels, stamped with
the current interval (R456), and the state after it (R443, R450). -/
def State.depart (s : State) (x : OutTxn) (ahead : List OutTxn) : Option (OutTxn × State) :=
  match s.planeFor x.dest.toNat x.va with
  | none => none
  | some p =>
    if s.onOldPlane x p || State.heldBefore x ahead then none
    else
      (if x.cls == 0 then s.passMeter p else some s).map fun s => ({ x with plane := some p, stamp := s.fabric.current }, s)

/-- The grid has taken part in fabric traffic since the current boundary (R459). -/
def State.noteFabric (s : State) (grid : Option Nat) : State :=
  match grid with
  | none => s
  | some q => { s with grids := Tab.modify s.grids q fun g => { g with fabricSince := some s.fabric.current.toNat } }

/-- A grid loads bytes at some locations: a line that a peer wrote is noted (R459). -/
def State.noteLoads (s : State) (grid : Option Nat) (locs : List Loc) : State :=
  if s.fabric.peerLines.isEmpty then s
  else if locs.any fun l => s.fabric.peerLines.contains l.line then s.noteFabric grid
  else s

/-! ### Departures in the order of classes (R449) -/

/-- Two lists in alternation. -/
def alternate : List Nat → List Nat → List Nat
  | [], l => l
  | a :: l, m => a :: (match m with
    | [] => l
    | b :: m => b :: alternate l m)

/-- The places of the transactions of a class. -/
def placesOf (out : List OutTxn) (cls : BitVec 2) : List Nat :=
  (List.range out.length).filter fun i => (out[i]?).any (·.cls == cls)

/-- The places of the egress in the order in which it serves them: class 0, then classes 1 and 2 in alternation (R449). -/
def serviceOrder (out : List OutTxn) : List Nat := placesOf out 0 ++ alternate (placesOf out 1) (placesOf out 2)

/-- Put a transaction into the egress. -/
def State.queueOut (s : State) (x : OutTxn) : State := { s with fabric := { s.fabric with out := s.fabric.out ++ [x] } }

/-- Give a transaction to the egress: it departs, and its grid takes part in fabric traffic then (R459), or it is held (R443). -/
def State.send (s : State) (x : OutTxn) : State :=
  match s.depart x s.fabric.out with
  | some (y, s) => (s.queueOut y).noteFabric x.grid
  | none => s.queueOut x

/-! ### Invalidations of peers' copies (R447, R450) -/

/-- An invalidation through a plane departs, if the port is up and the meter admits it (R450). -/
def State.departInval (s : State) (plane : Nat) : Option State := if (s.port plane).up then s.passMeter plane else none

/-- Ask for the removal of peers' copies of a line's region, before a write to it is accepted (R447): each plane recorded is sent
one invalidation, in class 0, when its port's meter admits it (R449, R450). -/
def State.invalidate (s : State) (tag : BitVec 16) (va : Nat) : State :=
  let region := vkey tag va / 512
  (s.planesOf tag va).foldl (fun s p =>
    if s.fabric.invals.any fun i => i.plane == p && i.region == region then s
    else
      let put (s : State) (sent : Bool) : State :=
        { s with fabric := { s.fabric with invals := s.fabric.invals ++ [{ plane := p, region := region, sent := sent }] } }
      match s.departInval p with
      | some s => put s true
      | none => put s false) s

/-- A store to some locations waits: peers' copies of their regions are to go (R447). -/
def State.invalidateLoc (s : State) (l : Loc) : State :=
  match s.globalOf l with
  | some a => s.invalidate a.1 a.2
  | none => s

/-- Whether a transaction of an operation of a team is on its way. -/
def State.outPending (s : State) (team op : Nat) : Bool := s.fabric.out.any fun x => x.team == some team && x.op == op

/-- Remove cached copies of peers' lines that satisfy `p`, by key (R446 to R448). -/
def State.dropPeerLines (s : State) (p : Nat → Line → Bool) : State :=
  ((s.lines.filter fun e => e.2.pa / 2 ^ 52 != s.fabric.fmod.toNat && p e.1 e.2).map (·.1)).foldl State.dropLine s

/-- The cached copies of a 512-byte region of a peer are removed. -/
def State.dropRegion (s : State) (region : Nat) : State := s.dropPeerLines fun k _ => k / 4 == region

/-- A transaction is the fill of a line, by its number. -/
def OutTxn.fills (x : OutTxn) (line : Nat) : Bool :=
  x.va / 128 == line && (match x.what with | .fill _ => true | _ => false)

/-- Whether a fill of a line is on its way. -/
def State.fillPending (s : State) (line : Nat) : Bool := s.fabric.out.any (·.fills line)

/-- Fills on their way that satisfy `p` bring no copy any more (R388, R447, R448). -/
def State.staleFills (s : State) (p : OutTxn → Bool) : State :=
  { s with fabric := { s.fabric with
      out := s.fabric.out.map fun (x : OutTxn) => if p x then { x with stale := true } else x } }

/-- An access that is no speculation asks for a line whose fill is on its way: the fill is its grid's from then on, which takes
part in fabric traffic if it has been sent (R190, R459). -/
def State.claimFill (s : State) (line : Nat) (grid : Option Nat) : State :=
  let mine (x : OutTxn) : Bool := x.spec && x.fills line
  let sent := s.fabric.out.any fun x => mine x && x.plane.isSome
  let s : State := { s with fabric := { s.fabric with
      out := s.fabric.out.map fun (x : OutTxn) => if mine x then { x with spec := false, grid := grid } else x } }
  if sent then s.noteFabric grid else s

/-- Request a line under the page that its walk gave: a fill from local memory, or a fill from a peer (R382, R446). A line
that a window serves by now is not cached (R311). `spec` is set for a speculative load, whose fill is no act of the grid's (R190). -/
def State.requestLine (s : State) (tag : BitVec 16) (va : Nat) (p : Page) (cls : BitVec 2) (team grid : Option Nat)
    (spec : Bool := false) : State :=
  if (Tab.find s.lines (lineKey tag va)).isSome || (s.findWindow tag va).isSome then s
  else if p.pa / 2 ^ 52 == s.fabric.fmod.toNat then s.fillLine tag va p
  else if s.fillPending (va % 2 ^ 48 / 128) then (if spec then s else s.claimFill (va % 2 ^ 48 / 128) grid)
  else
    s.send { dest := BitVec.ofNat 12 (p.pa / 2 ^ 52), va := va % 2 ^ 48 / 128 * 128, cls := cls, team := team
             grid := if spec then none else grid, op := 0, what := .fill p, spec := spec }

/-- How an access of an I/O-die agent ends: done, sent to a peer, refused, faulting at an address with a reason, or waiting (R384, R443,
R447). -/
inductive AgentRes (α : Type) where
  | done (a : α) (s : State)
  /-- a write has left for a peer, which has not accepted it yet -/
  | sent (s : State)
  | refused
  | fault (va reason : Nat)
  | wait (s : State)
  deriving Repr

/-- A read of bytes by an I/O-die agent under an ASID, with whether any is poisoned. -/
def State.agentRead (s : State) (asid : BitVec 16) (va : Nat) : Nat → AgentRes (List Byte × Bool)
  | 0 => .done ([], false) s
  | n + 1 =>
    match s.reach s.ioTlb (tagOf asid va) va .load false (asid == 0) with
    | .ready s' loc =>
      match State.agentRead s' asid (va + 1) n with
      | .done (bs, bad) s'' => .done (s'.readLoc loc :: bs, bad || s'.poisonLoc loc) s''
      | r => r
    | .held => .wait s
    | .peer s' p => .wait (s'.requestLine (tagOf asid va) va p 2 none none)
    | .protect => .refused
    | .fault r => .fault va r

/-- A write of bytes of one line by an I/O-die agent under an ASID; a peer's line takes it as a class-0 write, sent for
`grid` if for one (R449), under the number `id` by which the agent knows of its acceptance. -/
def State.agentWrite (s : State) (asid : BitVec 16) (va : Nat) (bytes : List Byte) (grid id : Option Nat) :
    AgentRes Unit :=
  let tag := tagOf asid va
  let at_ (o : Nat) : List (Nat × Byte) := (List.range bytes.length).map fun i => (o + i, bytes.getD i 0)
  match s.reach s.ioTlb tag va .store false (asid == 0) with
  | .ready s' loc =>
    if (s'.planesOf tag va).isEmpty && !s'.heldAgainst none tag va then
      .done () (s'.performStore none loc.line (at_ loc.inLine))
    else .wait (s'.invalidate tag va)
  | .held => .wait s
  | .peer s' p =>
    .sent (s'.send { dest := BitVec.ofNat 12 (p.pa / 2 ^ 52), va := va % 2 ^ 48 / 128 * 128, cls := 0, team := none
                     grid := grid, op := 0, id := id, what := .write (at_ (va % 128)) })
  | .protect => .refused
  | .fault r => .fault va r

end Sys2Proof.Machine
end

