-- ==== Sys2Proof/Machine/Beacon.lean ====
section
/-! DEFINITION. The memory rings: Beacon records and fault-queue records (spec/18 R391, R393, R405, R406). -/

namespace Sys2Proof.Machine

/-- Module time in ns since reset: a core cycle is 0.25 ns (R207, R405). -/
def State.timeNs (s : State) : Nat := s.cycle.toNat / 4

/-- The records a ring holds: 2^LOGN, LOGN outside 6 to 20 read as 8 (R393). -/
def Ring.size (r : Ring) : Nat := if 6 ≤ r.logn.toNat && r.logn.toNat ≤ 20 then 2 ^ r.logn.toNat else 256

/-- The address of record `n` (R393). -/
def Ring.slot (r : Ring) (n : Nat) : Nat := r.base.toNat % 2 ^ 48 / 4096 * 4096 + 64 * (n % r.size)

/-- A record whose write is refused or faults is dropped like one that finds the ring full (R406; log 16). -/
def Ring.lose (r : Ring) : Ring := { r with drop := r.drop + 1, ovf := true }

/-- The 64 bytes of a record (R405): header, then payload words at their offsets. -/
def recordBytes (source type sev seq time : Nat) (payload : List (Nat × Nat)) : List Byte :=
  let head := leBytes 2 source ++ leBytes 1 type ++ leBytes 1 sev ++ leBytes 4 seq ++ leBytes 8 time
  let body := [16, 24, 32, 40, 48, 56].flatMap fun o => leBytes 8 ((Tab.find payload o).getD 0)
  head ++ body

/-- RHEAD passes the records at the front of `sent` that are accepted (R406). -/
def Ring.advance (r : Ring) : Ring :=
  let rest := r.sent.dropWhile (·.done)
  { r with sent := rest, head := r.head + BitVec.ofNat 32 (r.sent.length - rest.length) }

/-- A record is in its place, or lost at its home; RHEAD passes it in the order of the records (R406; log 16). -/
def Ring.settle (r : Ring) (id : Nat) (failed : Bool) : Ring :=
  if r.sent.any (·.id == id) then
    let here (f : Flight) : Flight := if f.id == id then { f with done := true } else f
    let r := Ring.advance { r with sent := r.sent.map here }
    if failed then r.lose else r
  else r

/-- Write a record into a ring (R406): the ring after it, the state with the record's bytes, and the record's address where it
has been written in this package. RHEAD advances once the record, and those before it, are accepted where the ring is homed. -/
def State.ringWrite (s : State) (r : Ring) (source type sev : Nat) (payload : List (Nat × Nat)) : Ring × State × Option Nat :=
  let seq := (Tab.find r.seqs source).getD 0
  let r := { r with seqs := Tab.put r.seqs source ((seq + 1) % 2 ^ 32) }
  let id := s.front.nextWrite
  let next := r.head.toNat + r.sent.length
  let place (done : Bool) : Ring := Ring.advance { r with sent := r.sent ++ [{ id := id, done := done }] }
  let count (s : State) : State := { s with front := { s.front with nextWrite := id + 1 } }
  if !r.en || (r.head - r.tail).toNat + r.sent.length == r.size then (r.lose, s, none)
  else
    match s.agentWrite 0 (r.slot next) (recordBytes source type sev seq s.timeNs payload) none (some id) with
    | .done _ s' => (place true, s', some (r.slot next))
    | .sent s' => (place false, count s', none)
    | _ => (r.lose, s, none)

/-- Write a Beacon record, and answer where it stands in this package (R406). -/
def State.putBeacon (s : State) (source type sev : Nat) (payload : List (Nat × Nat)) : State × Option Nat :=
  let (r, s', at_) := s.ringWrite s.relia.beacon source type sev payload
  ({ s' with relia := { s'.relia with beacon := r } }, at_)

/-! ### CRC checks (R435, R436) -/

/-- Count a mismatch, and a retransmission that fails too (R435). -/
def State.countMismatch (s : State) (n : BitVec 32) : State :=
  { s with relia := { s.relia with crcRetried := s.relia.crcRetried + 1, crcFailed := s.relia.crcFailed + n } }

/-- The payload of record 0x61 (R436). -/
def crcPayload (source : Nat) (tag : BitVec 16) (va : Nat) : List (Nat × Nat) := [(16, va), (24, tag.toNat), (32, source)]

/-- The outcome that waits for the next transaction of a source die, 4 for the I/O die, taken by one to the die of an address
(R435; log 10). A transaction within a die passes between no two L2s of different dies. -/
def State.takeCrc (s : State) (source : Nat) (tag : BitVec 16) (va : Nat) : CrcResult × State :=
  match Tab.find s.relia.crcNext source with
  | none => (.good, s)
  | some crc =>
    if source == s.dieAt tag va then (.good, s)
    else (crc, { s with relia := { s.relia with crcNext := Tab.erase s.relia.crcNext source } })

/-- A record has been written at an address of this package: a mismatch of its write is counted, and where the retransmission
failed too its granules are poisoned and record 0x61 follows (R435, R436). -/
def State.recordCrc (s : State) (at_ : Option Nat) : State :=
  match at_ with
  | none => s
  | some va =>
    let (crc, s) := s.takeCrc 4 0 va
    match crc with
    | .good => s
    | .retried => s.countMismatch 0
    | .failed =>
      let l := s.locOf 0 va
      (((s.countMismatch 1).setPoison l).setPoison (l.add 32)).putBeacon 0x0600 0x61 2 (crcPayload 4 0 va) |>.1

/-- Write a Beacon record (R406, R435). -/
def State.beacon (s : State) (source type sev : Nat) (payload : List (Nat × Nat)) : State :=
  let (s, at_) := s.putBeacon source type sev payload
  s.recordCrc at_

/-- The CRC checks of a transaction from a source die, 4 for the I/O die and 5 for the fabric, are counted; a failed
retransmission is recorded (R435, R436). -/
def State.countCrc (s : State) (source : Nat) (tag : BitVec 16) (va : Nat) (crc : CrcResult) : State :=
  match crc with
  | .good => s
  | .retried => s.countMismatch 0
  | .failed => (s.countMismatch 1).beacon 0x0600 0x61 2 (crcPayload source tag va)

/-- The CRC check of a transaction between a die and that of an address: whether it failed twice (R435). -/
def State.crossing (s : State) (source : Nat) (tag : BitVec 16) (va : Nat) : Bool × State :=
  let (crc, s) := s.takeCrc source tag va
  (crc == .failed, s.countCrc source tag va crc)

/-- A store to a line that stands in this package is performed: by a team of `grid`, whose core's die is `die`, into the line of
core `core` if it holds it writable. Where the CRC check between dies has failed twice its granules are poisoned (R435). -/
def State.landStore (s : State) (die : Nat) (grid core : Option Nat) (line : Loc) (bytes : List (Nat × Byte)) : State :=
  let (bad, s) := match s.globalOf line with
    | some (tag, va) => s.crossing die tag va
    | none => (false, s)
  let s := s.performStore grid line bytes core
  if bad then s.poisonBytes line bytes else s

/-- The source ids of R405. -/
def srcCore (core : Nat) : Nat := 0x0100 + core
def srcCluster (cl : Nat) : Nat := 0x0200 + cl
def srcDie (die : Nat) : Nat := 0x0300 + die
def srcVault (die vault : Nat) : Nat := 0x0400 + 64 * die + vault
def srcSlice (die slice : Nat) : Nat := 0x0500 + 16 * die + slice
def srcFront : Nat := 0x0600

/-- The grid, gang and team numbers of a fault record (R391). -/
def State.faultIds (s : State) (team grid : Option Nat) : Nat × Nat × Nat :=
  match team.bind (Tab.find s.teams ·) with
  | some t => (t.launch.number.toNat, t.gang, t.num)
  | none =>
    match grid.bind (Tab.find s.grids ·) with
    | some g => (g.number.toNat, 0, 0)
    | none => (0, 0, 0)

/-- Write a fault record and hold its token (R391): a walk that faulted with a reason. -/
def State.faultRecord (s : State) (w : Walk) (reason : Nat) : State :=
  let tok := s.relia.nextToken
  let (grid, gang, num) := s.faultIds w.team w.grid
  let (r, s', at_) := s.ringWrite s.relia.fq w.source.toNat 0x40 0
    [(16, w.line * 128),
     (24, w.tag.toNat + (if w.write then 2 ^ 16 else 0) + (if w.fetch then 2 ^ 17 else 0) +
       (if w.user then 2 ^ 18 else 0) + reason % 16 * 2 ^ 20),
     (32, tok.toNat), (40, grid), (48, gang), (56, num)]
  let s : State := { s' with relia := { s'.relia with
      fq := r, nextToken := tok + 1
      faults := s'.relia.faults ++
        [{ token := tok, tag := w.tag, line := w.line, write := w.write, fetch := w.fetch, user := w.user
           source := w.source, team := w.team, grid := w.grid }] } }
  s.recordCrc at_

end Sys2Proof.Machine
end

