-- ==== Sys2Proof/Machine/Ops.lean ====
section
/-! DEFINITION. The named operations on a team: its registers and k file, in-flight counters, retirement, DET events,
transaction abort, taking a trap and returning from one, instruction fetch, the pass of time. -/

namespace Sys2Proof.Machine

/-- What a meaning answers. -/
abbrev Result := Host.Outcome State Fault Refusal

/-! ### Keys -/

/-- The key of a gang: its grid's sequence number and its linear number. -/
def gangKeyOf (seq gang : Nat) : Nat := seq * 2 ^ 48 + gang
/-- The key of a team. -/
def teamKeyOf (seq gang num : Nat) : Nat := gangKeyOf seq gang * 16 + num

def Team.gangKey (t : Team) : Nat := gangKeyOf t.seq t.gang
def Team.key (t : Team) : Nat := teamKeyOf t.seq t.gang t.num

/-- Mask words of a team, P = L / 32 (R13). -/
def Team.words (t : Team) : Nat := t.lanes / 32
/-- Registers of a mask block, W = max(1, L/64) (R16). -/
def Team.blockRegs (t : Team) : Nat := max 1 (t.lanes / 64)

def State.team (s : State) (k : Nat) : Option Team := Tab.find s.teams k
def State.setTeam (s : State) (k : Nat) (t : Team) : State := { s with teams := Tab.put s.teams k t }
def State.modTeam (s : State) (k : Nat) (f : Team → Team) : State := { s with teams := Tab.modify s.teams k f }
def State.gang (s : State) (k : Nat) : Option Gang := Tab.find s.gangs k
def State.setGang (s : State) (k : Nat) (g : Gang) : State := { s with gangs := Tab.put s.gangs k g }
def State.modGang (s : State) (k : Nat) (f : Gang → Gang) : State := { s with gangs := Tab.modify s.gangs k f }
def State.grid (s : State) (q : Nat) : Option Grid := Tab.find s.grids q
def State.modGrid (s : State) (q : Nat) (f : Grid → Grid) : State := { s with grids := Tab.modify s.grids q f }
def State.modCore (s : State) (c : Nat) (f : CoreRegs → CoreRegs) : State := s.setCore c (f (s.core c))

/-! ### Scalar registers -/

/-- The k file (R29, R30); k57 and k58 read the placement of the moment (R31). -/
def Team.kreg (t : Team) (n : Nat) : W64 :=
  if n < 48 then t.args.getD n 0
  else
    let b := BitVec.ofNat 64
    match n with
    | 48 => b t.num
    | 49 => b t.gang
    | 50 => t.launch.number.setWidth 64
    | 51 => b t.lanes
    | 52 => b t.launch.gangs
    | 53 => b t.launch.teams
    | 54 => b (t.launch.x.toNat + t.launch.y.toNat * 2 ^ 16 + t.launch.z.toNat * 2 ^ 32)
    | 55 => b (t.launch.gx.toNat + t.launch.gy.toNat * 2 ^ 16 + t.launch.gz.toNat * 2 ^ 32)
    | 56 => b t.launch.depth
    | 57 => b t.core.toNat
    | 58 => b (t.core.toNat / 4)
    | 59 => b t.seq
    | 60 => b t.launch.scratch
    | _ => 0

/-- A scalar register s0 to s63. -/
def Team.sreg (t : Team) (n : Nat) : W64 := t.s.getD n 0
def Team.setS (t : Team) (n : Nat) (v : W64) : Team := { t with s := t.s.setIfInBounds n v }

/-- A scalar source field: s0 to s63, then k0 to k63 (R27, R55). -/
def Team.src (t : Team) (f : BitVec 7) : W64 := if f.toNat < 64 then t.sreg f.toNat else t.kreg (f.toNat - 64)

/-- A value that arrives for a scalar register from outside the core (R189): it is committed state, so a transaction
begun since holds it in its checkpoint too (DEDUCED, log 17). -/
def Team.arriveS (t : Team) (n : Nat) (v : W64) : Team :=
  { t with
    s := t.s.setIfInBounds n v, busy := t.busy.filter (· != n)
    tx := if t.txstat.active then { t.tx with ckS := t.tx.ckS.setIfInBounds n v } else t.tx }

/-! ### In-flight counters (R169, R170) -/

/-- The paths. -/
def pathLDG : Fin 8 := 0
def pathSTG : Fin 8 := 1
def pathLDL : Fin 8 := 2
def pathCPY : Fin 8 := 3
def pathMTX : Fin 8 := 4
def pathDRN : Fin 8 := 5
def pathTX : Fin 8 := 6

/-- Counter(path). -/
def Team.counter (t : Team) (p : Fin 8) : Nat := t.paths[p].length

/-- Raise a counter by the operation named `id`. -/
def Team.raisePath (t : Team) (p : Fin 8) (id : Nat) : Team :=
  { t with paths := t.paths.set p (t.paths[p] ++ [{ id := id, done := false }]) }

/-- Raise a counter by a new operation, which takes the team's next name. -/
def Team.startOp (t : Team) (p : Fin 8) : Team := { t.raisePath p t.opSeq with opSeq := t.opSeq + 1 }

/-- Mark an operation complete; completions are counted in issue order (R170). -/
def lowerFlights (id : Nat) (l : List Flight) : List Flight :=
  (l.map fun f => if f.id == id then { f with done := true } else f).dropWhile (·.done)

def Team.completeOp (t : Team) (id : Nat) : Team := { t with paths := t.paths.map (lowerFlights id) }

/-- Paths 0, 1, 2 and 6 are zero, as a trap needs (R249). -/
def Team.drained (t : Team) : Bool :=
  t.counter pathLDG == 0 && t.counter pathSTG == 0 && t.counter pathLDL == 0 && t.counter pathTX == 0

/-- Every counter is zero. -/
def Team.allZero (t : Team) : Bool := t.paths.toList.all (·.isEmpty)

/-- Whether the checked store queue holds a store of an operation. -/
def CoreRegs.holdsOp (c : CoreRegs) (k op : Nat) : Bool := c.queue.any fun e => e.team == k && e.op == op

/-- Complete an operation all of whose passes have issued once the queue holds no store of it (R169). -/
def State.settleOp (s : State) (k op : Nat) : State :=
  match s.team k with
  | none => s
  | some t =>
    if t.openOp == some op || (s.core t.core.toNat).holdsOp k op then s else s.setTeam k (t.completeOp op)

/-- Close the operation of the current instruction: it issues no further pass. -/
def State.closeOp (s : State) (k : Nat) : State :=
  match s.team k with
  | none => s
  | some t =>
    match t.openOp with
    | none => s
    | some op => (s.setTeam k { t with openOp := none }).settleOp k op

/-! ### DET events (R373, R374) -/

/-- Record event `c` at `pc` (R374). -/
def Team.detEvent (t : Team) (c : Nat) (pc : Addr) : Team :=
  if !t.launch.det || t.saving then t
  else
    let n := t.detcause.toNat
    let count := min (n / 2 ^ 32 + 1) 0xFFFFFFFF
    let causes := BitVec.ofNat 64 (n % 2 ^ 32) ||| (1#64 <<< c)
    let broken : W64 := if 2 ≤ c then 1#64 <<< 16 else 0
    let cause := causes ||| broken ||| BitVec.ofNat 64 (count * 2 ^ 32)
    let word (k : Nat) : W64 := BitVec.ofNat 64 (c * 2 ^ 60 + k * 2 ^ 48 + pc.toNat / 4 * 4)
    let same (v : W64) : Bool := v.toNat / 2 ^ 60 == c && v.toNat % 2 ^ 48 / 4 == pc.toNat / 4
    match (List.range 8).find? fun i => same (t.detlog.getD i 0) with
    | some i =>
      { t with detcause := cause
               detlog := t.detlog.setIfInBounds i (word (min (bitsOf (t.detlog.getD i 0).toNat 59 48 + 1) 4095)) }
    | none =>
      match (List.range 8).find? fun i => (t.detlog.getD i 0).toNat / 2 ^ 60 == 0 with
      | some i => { t with detcause := cause, detlog := t.detlog.setIfInBounds i (word 1) }
      | none => { t with detcause := cause ||| (1#64 <<< 17) }

/-- Record an event of a team at its current instruction, while a condition holds. -/
def Team.detIf (t : Team) (b : Bool) (c : Nat) : Team := if b then t.detEvent c t.pc else t

/-- Scalar fields whose read is placement-dependent: k50, k57, k58, k59 (R373). -/
def placeField (f : Nat) : Bool := f == 114 || f == 121 || f == 122 || f == 123

/-- Discard every unchecked pass (R186, R198). -/
def Team.discardLog (t : Team) : Team := { t with pipe := { t.pipe with log := [], next := none } }

/-! ### Retirement (R183, R208) -/

/-- Count a retirement: RETIRED rises in user mode (R208), and a DET quantum ends at its multiple (R361). -/
def Team.countRetired (t : Team) : Team :=
  if t.sys then t
  else
    let r := t.retired + 1
    { t with
      retired := r
      park := if t.launch.det && !t.txstat.active && r.toNat % 2 ^ t.launch.qlog == 0 && t.park.isNone then some .clock
              else t.park }

/-- The team's current instruction has passes that the main pipeline has not logged: what is checked of it issues then. -/
def Pipeline.behind (p : Pipeline) : Bool := p.next.isNone || decide (p.count ≤ p.base)

/-- A pass of the team has been issued or checked (R201); one that issues with its check ends a YIELD (R124). -/
def Team.acts (t : Team) : Team :=
  { t with pipe := { t.pipe with acted := true }, yielded := if t.pipe.behind then none else t.yielded }

/-- The pipeline after the team's instruction has retired and goes on at `pc` (R183). -/
def Pipeline.retire (p : Pipeline) (at_ pc : Addr) : Pipeline :=
  { p with acted := true, base := p.base + 1, went := some (at_, pc) }

/-- Retire the instruction and go on at `pc`. -/
def Team.retireTo (t : Team) (pc : Addr) : Team :=
  { t with
    pc := pc, pass := 0, waitOnly := false, rowWait := none, inside := false, prog := {}, pipe := t.pipe.retire t.pc pc
    yielded := if t.pipe.behind then none else t.yielded }.countRetired

/-- Retire the instruction and go on at the next word. -/
def Team.retire (t : Team) : Team := t.retireTo (t.pc + 4)

/-! ### Transactions: abort (R244) -/

/-- The lowest lane of a lane set, 0xFFFF for none. -/
def lowestLane (m : BitVec 1024) : BitVec 16 :=
  match (List.range 1024).find? (m.getLsbD ·) with
  | some i => BitVec.ofNat 16 i
  | none => 0xFFFF

/-- The error marks of a team when every row touched since TXBEGIN returns to the checkpoint (R244, R401). -/
def Team.marksBack (t : Team) : List Nat :=
  let touched (e : Nat) : Bool := (Tab.find t.tx.touched (e / 32)).isSome
  t.rowErr.filter (!touched ·) ++ t.tx.ckErr.filter touched

/-- Abort the active transaction whole at the instruction at `pc` (R244). With `silent`, an abort under DET by
pre-emption, migration or the breaker: the status stands as before the TXBEGIN, and RETIRED too (R244, R368). -/
def Team.abortTx (t : Team) (pc : Addr) (silent : Bool) : Team :=
  if !t.txstat.active then t
  else
    { t with
      s := t.tx.ckS, prog := {}, mode := t.tx.ckMode, fkey := t.tx.ckFkey, rows := t.tx.ckRows, rowErr := t.marksBack
      retired := if silent then t.tx.ckRetired else t.retired
      txabpc := if silent then t.tx.beforeAbPc else pc.setWidth 64
      txstat :=
        if silent then t.tx.before
        else
          { t.txstat with
            active := false, abort := true, count := 0, lowfail := lowestLane t.tx.parts
            failrun := if t.txstat.failrun == 15 then 15 else t.txstat.failrun + 1 }
      tx := {} }

/-- Release the holds of a team (R242). -/
def State.releaseHolds (s : State) (k : Nat) : State := { s with holds := s.holds.filter (·.team != k) }

/-! ### Grids that fault (R343, R344) -/

/-- The faulting agent of a record is a core (R391). -/
def Fault'.ofCore (f : Fault') : Bool := f.source.toNat / 256 == 1

/-- Fault a grid: the first reason stands (R343). The tokens of the grid are outstanding no more (R392): those of its teams'
own accesses end with the teams, which are about to be stopped (`State.staleFault`, `State.forgetFaults`); an access that goes on,
such as an engine operation's (R344), is walked again and takes a new token if it still faults (log 99). -/
def State.faultGrid (s : State) (seq reason : Nat) : State :=
  if (s.grid seq).any fun g => g.reason == 0 && g.stat != .retired then
    { s.modGrid seq fun g => { g with reason := BitVec.ofNat 8 reason } with
      relia := { s.relia with faults := s.relia.faults.filter fun f => f.grid != some seq || f.ofCore } }
  else s

/-- A team stops being a live participant of its barriers and phase episodes (R304). -/
def State.leaveLive (s : State) (t : Team) : State :=
  s.modGang t.gangKey fun g => { g with live := g.live.filter (· != t.num) }

/-! ### Traps (R249 to R252) -/

/-- TRAPBASE.BASE of the team's core (R253). -/
def State.vector (s : State) (t : Team) (off : Nat) : Addr :=
  BitVec.ofNat 48 ((s.core t.core.toNat).trapbase.toNat % 2 ^ 48 / 4096 * 4096 + off)

/-- Every class that a window raised. -/
def raisedAll : List Raised → BitVec 5
  | [] => 0
  | r :: t => r.fl ||| raisedAll t

/-- OR flags into FPFLAGS (R24). -/
def Team.orFlags (t : Team) (fl : BitVec 5) : Team := { t with fpflags := t.fpflags ||| fl.setWidth 32 }

/-- The window of an interrupted instruction ends: the flags of its committed passes are ORed into FPFLAGS (R134). -/
def Team.closeWindow (t : Team) : Team :=
  { t with fpflags := t.fpflags ||| (raisedAll t.prog.ev).setWidth 32, prog := { t.prog with ev := [] } }

/-- Steps 1 and 3 to 5 of trap entry (R249): younger passes discarded, the records, system mode, the vector at `base`; what
the interrupted instruction has committed is kept for its resumption (R198). -/
def Team.enterTrap (t : Team) (r : TrapRec) (base : Addr) : Team :=
  { t.discardLog with
    trapcause := BitVec.ofNat 64 (r.cause.toNat + (if r.done then 2 ^ 8 else 0) + (if r.waitOnly then 2 ^ 9 else 0))
    trappc := r.pc.setWidth 64
    trappass := BitVec.ofNat 64 r.pass
    trapinfo := r.info
    traplane := BitVec.ofNat 64 r.lane
    trapmode := t.mode.setWidth 64
    mode := 2, sys := true
    pc := base + BitVec.ofNat 48 (64 * r.cause.toNat)
    pass := 0, waitOnly := false, openOp := none, trap := none, rowWait := none, inside := false, yielded := none
    prog := {}, progSaved := t.prog }

/-- Matrix commands on the halves that a failed pass of the team left are discarded no longer (R294). -/
def State.unblockTiles (s : State) (k : Nat) (t : Team) : State :=
  s.modGang t.gangKey fun g => { g with tileBlocked := g.tileBlocked.filter (·.2 != k) }

/-- Take a decided trap: the entry, and the record of a pipeline error (R249, R260); the trap of a matrix failure ends
the discarding of R294. -/
def State.takeTrap (s : State) (k : Nat) (t : Team) (r : TrapRec) : State :=
  let t' := t.enterTrap r (s.vector t 0)
  let s := s.setTeam k t'
  if r.cause == 0x0E && r.isReport then s.unblockTiles k t
  else if r.cause == 0x0E then
    s.beacon (srcCore t.core.toNat) 0x10 2
      [(16, t'.trappc.toNat), (24, t'.trappass.toNat), (32, t'.trapinfo.toNat), (40, t.launch.number.toNat),
       (48, t.asid.toNat)]
  else s

/-- The outstanding misses and faults of a team's core are forgotten: its waiting access is discarded (R196, R392). -/
def State.forgetFaults (s : State) (k : Nat) : State :=
  { s with
    walks := s.walks.filter fun w => !(w.source.toNat / 256 == 1 && w.team == some k)
    relia := { s.relia with
      faults := s.relia.faults.filter fun f => !(f.ofCore && f.team == some k)
      fatal := s.relia.fatal.filter fun f => !(f.ofCore && f.team == some k) } }

/-- A double trap (R251): the team is halted as by a faulted HALT, and Beacon names both causes. Its attempt ends with it, so
its holds are released: R242 does not say so (DESIGN CHOICE, log 105). -/
def State.doubleTrap (s : State) (k : Nat) (t : Team) (cause : BitVec 8) (pc : Addr) : State :=
  let s := (((s.closeOp k).forgetFaults k).releaseHolds k).modTeam k fun u => { u.discardLog with stat := .stopped, trap := none, reports := [] }
  let s := (s.leaveLive t).unblockTiles k t
  let s := s.faultGrid t.seq 4
  s.beacon (srcCore t.core.toNat) 0x12 3
    [(16, t.trapcause.toNat), (24, t.trappc.toNat), (32, cause.toNat), (40, pc.toNat)]

/-- The team after a trap has been decided for it: the transaction it aborts, and the record as R244 changes it. -/
def Team.decide (t : Team) (r : TrapRec) : Team × TrapRec :=
  if t.txstat.active && r.cause != 0x0C then
    (t.abortTx t.pc false, { r with pc := t.tx.restart, pass := 0, done := false, waitOnly := false })
  else (t, r)

/-- The check of the team's instruction has found a trap (R185); a report is none of its own. -/
def Team.traps (t : Team) (r : TrapRec) : Team :=
  if r.isReport then t else { t with pipe := { t.pipe with trapped := some (r.cause, r.pass) } }

/-- A trap of the team's current instruction (R249 to R251): a double trap in system mode; else the transaction is
aborted (R244), the operation of the instruction issues no more, and the trap is taken, at once when the paths are
zero and at TRAP_ENTRY otherwise. -/
def State.raise (s : State) (k : Nat) (r : TrapRec) : State :=
  let s := (s.closeOp k).modTeam k (·.traps r)
  match s.team k with
  | none => s
  | some t =>
    if t.sys then s.doubleTrap k t r.cause t.pc
    else
      let (t', r') := t.closeWindow.decide r
      let s := if t.txstat.active && !t'.txstat.active then s.releaseHolds k else s
      let t' := if r'.done then t'.countRetired else t'
      if t'.drained then s.takeTrap k t' r' else s.setTeam k { t' with trap := some r' }

/-- A trap record precise at the current instruction (R252). -/
def Team.at (t : Team) (cause : BitVec 8) (info : W64) : TrapRec := { cause := cause, pc := t.pc, info := info }

/-- Illegal instruction with its reason (R64). -/
def Team.illegal (t : Team) (word : W32) (reason : Nat) : TrapRec :=
  t.at 0x01 (word.setWidth 64 ||| BitVec.ofNat 64 (reason * 2 ^ 32))

/-- Privilege (R247), transaction misuse (R243) and barrier misuse (R301): TRAPINFO holds the word. -/
def Team.privilege (t : Team) (word : W32) : TrapRec := t.at 0x0D (word.setWidth 64)
def Team.misuse (t : Team) (word : W32) : TrapRec := t.at 0x0C (word.setWidth 64)
def Team.barrierMisuse (t : Team) (word : W32) : TrapRec := t.at 0x0F (word.setWidth 64)

/-- The word of an instruction, as its trap records it. -/
def wordOf (i : Instr) : W32 := (encode i).getD 0

/-! ### Issue -/

/-- The s registers of the guard block while the guard is on (R16). -/
def Team.guardRegs (t : Team) : List Nat :=
  if t.mode.getLsbD 16 then (List.range t.blockRegs).map (bitsOf t.mode.toNat 15 10 + ·) else []

/-- The grid of a team, from its key. -/
def seqOfKey (k : Nat) : Nat := k / 2 ^ 52

/-- Whether a team may issue its next instruction: no trap or completion awaited, no DET park in user mode (R361),
no boundary under way (R362). -/
def Team.mayIssue (t : Team) : Bool :=
  t.stat == .running && t.trap.isNone && t.await.isNone && (t.park.isNone || t.sys) && !t.boundary

/-- The reported trap that the team takes before its next instruction, and not within one (R250). -/
def Team.dueReport (t : Team) : Option TrapRec :=
  if t.sys || t.inside then none
  else t.reports.head?.map fun r => { r with pc := t.pc, pass := t.pass, waitOnly := t.waitOnly, isReport := true }

/-- An AMO of the team is not yet performed. Its poison trap is precise at it (R233, R252), so no younger instruction is
committed before it; R42 names no such wait and R52 lets younger ones issue (DEDUCED, log 22). This gives `.acq` its order,
too (R224). -/
def State.amoOut (s : State) (k : Nat) : Bool := s.amos.any (·.team == k)

/-- A reported trap of a team (R125, R250): pending for an operation of user mode, a double trap for one of system mode;
after EXIT the grid faults. -/
def State.report (s : State) (k : Nat) (r : TrapRec) (sys : Bool) : State :=
  match s.team k with
  | none => s
  | some t =>
    if t.stat == .exited then s.faultGrid t.seq 11
    else if t.stat == .stopped || t.stat == .ended then s
    else if sys then s.doubleTrap k t r.cause r.pc
    else s.setTeam k { t with reports := t.reports ++ [r] }

/-- Issue an instruction of the selected team that reads or writes the scalar fields `uses` (a field of 64 or more is a
k register). The meaning `f` gets the team with the DET event of its placement reads. A stalled team, and a team
whose scoreboard holds a register (R53) or whose AMO is on its way, stays as it is; a reported trap is taken first (R250). -/
def issue (s : State) (uses : Team → List Nat) (f : Nat → Team → Result) : Result :=
  match s.cur with
  | none => .fault .noTeam
  | some k =>
    match s.team k with
    | none => .fault .noTeam
    | some t =>
      if t.stat != .running then .fault .noTeam
      else if !t.mayIssue then .next s
      else
        match t.dueReport with
        | some r => .next ((s.setTeam k { t with reports := t.reports.tail }).raise k r)
        | none =>
          if (uses t).any (t.busy.contains ·) || s.amoOut k then .next s else f k t

/-- The team with the DET event of an instruction's placement-dependent reads (R373). -/
def Team.reading (t : Team) (uses : List Nat) : Team := t.detIf (uses.any placeField) 2

/-- A trap that a check decides, where it fails (R64). -/
def trapIf (fails : Bool) (r : TrapRec) : Option TrapRec := if fails then some r else none

/-- The privilege check of R247. -/
def Team.systemOnly (t : Team) (i : Instr) : Option TrapRec := trapIf (!t.sys) (t.privilege (wordOf i))

/-- A self-check of the core that fires twice at pass `w` (R194). -/
def State.checkFires (s : State) (t : Team) (w : Nat) : Option SelfCheck :=
  (Tab.find s.selfCheck t.core.toNat).filter fun c => c.pass == w

/-- TRAPINFO of a pipeline error: the unit and the kind (R259). -/
def SelfCheck.info (c : SelfCheck) (unit : Nat) : W64 :=
  BitVec.ofNat 64 (unit + 256 * (match c.kind with
    | .residue => 1
    | .parity => 2))

/-- The unit of a memory pass: the load comparison, or the scalar checker, which checks addresses and store data (R193). -/
def SelfCheck.memUnit (c : SelfCheck) (load : Bool) : Nat := if load && c.load then 5 else 4

/-- The pipeline-error trap of a one-pass operation (R194, R259); the firing is spent. -/
def State.pipelineError (s : State) (k : Nat) (t : Team) (info : W64) : State :=
  { s with selfCheck := Tab.erase s.selfCheck t.core.toNat }.raise k (t.at 0x0E info)

/-- Issue an instruction of one pass (R183): the checks `chk` that precede its execution (R64), then, unless its pass is
behind (R256) or skipped (R15), the self-check of its pass in `unit` (R194), then its effect `f`. -/
def issuePass (s : State) (uses : Team → List Nat) (chk : Team → Option TrapRec) (skipped : Team → Bool)
    (f : Nat → Team → Result) (unit : SelfCheck → Nat := fun _ => 4) : Result :=
  issue s uses fun k t =>
    match chk t with
    | some r => .next (s.raise k r)
    | none =>
      if t.words ≤ t.pass || skipped t then .next (s.setTeam k t.retire)
      else
        match s.checkFires t 0 with
        | some c => .next (s.pipelineError k t (c.info (unit c)))
        | none => f k (t.reading (uses t))

/-- Issue an instruction of one pass that is never skipped. -/
def issueChecked (s : State) (uses : Team → List Nat) (chk : Team → Option TrapRec) (f : Nat → Team → Result)
    (unit : SelfCheck → Nat := fun _ => 4) : Result :=
  issuePass s uses chk (fun _ => false) f unit

/-- Issue an instruction checked as a scalar operation (R184) that no check of its own precedes. -/
def issueScalar (s : State) (uses : Team → List Nat) (f : Nat → Team → Result) : Result :=
  issueChecked s uses (fun _ => none) f

/-- Commit a team as the whole effect of an instruction. -/
def State.commit (s : State) (k : Nat) (t : Team) : Result := .next (s.setTeam k t)

/-! ### A team's view of memory -/

/-- The value that the youngest queue entry of a core holds for a byte (R191). -/
def forwardFrom (line : Loc) (o : Nat) : List QEntry → Option Byte
  | [] => none
  | e :: t =>
    match forwardFrom line o t with
    | some b => some b
    | none => if e.loc == line then (e.bytes.findRev? fun x => x.1 == o).map (·.2) else none

/-- The youngest queue entry of a core that holds a byte (R191). -/
def supplier (line : Loc) (o : Nat) : List QEntry → Option QEntry
  | [] => none
  | e :: t =>
    match supplier line o t with
    | some x => some x
    | none => if e.loc == line && e.bytes.any (·.1 == o) then some e else none

/-- A team's latest buffered store to a byte under DET (R363). -/
def Team.buffered (t : Team) (l : Loc) : Option Byte := forwardFrom l.line l.inLine t.buf

/-- A byte as a load of the team reads it (R191, R363): its private buffer, then the core's checked store queue, then
coherent memory. -/
def State.teamByte (s : State) (t : Team) (l : Loc) : Byte :=
  match t.buffered l with
  | some b => b
  | none =>
    match forwardFrom l.line l.inLine (s.core t.core.toNat).queue with
    | some b => b
    | none => s.readLoc l

/-- The queue entry that a load of the team reads a byte from, if any. -/
def State.supplierOf (s : State) (t : Team) (l : Loc) : Option QEntry :=
  if (t.buffered l).isSome then none else supplier l.line l.inLine (s.core t.core.toNat).queue

/-- The numbers of `l` that still stand in a core's queue. -/
def CoreRegs.standing (c : CoreRegs) (l : List Nat) : List Nat := l.filter fun n => c.queue.any (·.n == n)

/-- Note which queue entries a load of the team reads (R175, R222); `acq` when it is an acquire, which orders them before
its later stores (R224). -/
def State.noteSeen (s : State) (k : Nat) (locs : List Loc) (n : Nat) (acq : Bool := false) : State :=
  s.modTeam k fun t =>
    let from_ := (locs.flatMap fun l => (List.range n).filterMap fun i => (s.supplierOf t (l.add i)).map (·.n)).eraseDups
    if from_.isEmpty then t
    else
      let c := s.core t.core.toNat
      { t with
        seen := c.standing (t.seen.filter fun m => !from_.contains m) ++ from_
        acquired := if acq then c.standing (t.acquired.filter fun m => !from_.contains m) ++ from_ else t.acquired }

/-- `n` bytes as a load of the team reads them, little-endian. -/
def State.teamRead (s : State) (t : Team) (l : Loc) (n : Nat) : Nat :=
  leNat ((List.range n).map fun i => s.teamByte t (l.add i))

/-! ### Instruction fetch (R46, R47, R119, R466) -/

/-- A pending last-level miss of a team for a line (R196). -/
def Team.walkFor (t : Team) (k : Nat) (tag : BitVec 16) (va : Nat) (need : Need) : Walk :=
  { tag := tag, line := va % 2 ^ 48 / 128, write := need == .store, fetch := need == .fetch, user := !t.sys
    source := BitVec.ofNat 16 (srcCore t.core.toNat), team := some k, grid := some t.seq }

/-- A fault is that of the access of a miss: the same access to the same page of 64 KiB, the smallest there is (R196,
R386). -/
def Walk.sameFault (w : Walk) (f : Fault') : Bool :=
  f.tag == w.tag && f.line / 512 == w.line / 512 && f.team == w.team && f.write == w.write && f.fetch == w.fetch &&
    f.source == w.source

/-- Ask for a walk, once while it is pending or the fault of its page is outstanding. -/
def State.askWalk (s : State) (w : Walk) : State :=
  if s.walks.contains w || s.relia.faults.any w.sameFault then s else { s with walks := s.walks ++ [w] }

/-- Whether an access of a team has been declared fatal (R392). -/
def State.isFatal (s : State) (k : Nat) (tag : BitVec 16) (va : Nat) (need : Need) : Bool :=
  s.relia.fatal.any fun f =>
    f.ofCore && f.team == some k && f.tag == tag && f.line / 512 == va % 2 ^ 48 / 2 ^ 16 && f.write == (need == .store) &&
      f.fetch == (need == .fetch)

/-- The fatal verdicts of a team are spent when its trap is taken. -/
def State.spendFatal (s : State) (k : Nat) : State :=
  { s with relia := { s.relia with fatal := s.relia.fatal.filter fun f => !(f.ofCore && f.team == some k) } }

/-- What a fetch brings: a word, a wait for the line, or a trap at the instruction. -/
inductive Fetched where
  | word (w : W32)
  | wait (s : State)
  | trap (cause : BitVec 8)
  deriving DecidableEq, Repr

/-- Fetch the team's next word (R46, R47): the line must be present with X, and U in user mode (R382). -/
def State.fetch (s : State) (k : Nat) (t : Team) : Fetched :=
  let va := t.pc.toNat
  let tag := tagOf (t.asid.setWidth 16) va
  let loc := s.locOf tag va
  let readIt : Fetched :=
    if s.poisonLoc loc then .trap 0x11 else .word (BitVec.ofNat 32 (s.teamRead t loc 4))
  match s.findWindow tag va with
  | some (_, w) =>
    if w.stat == .closing then .wait s
    else
      match Tab.find w.home ((va - w.base) / 128) with
      | none => readIt
      | some l => if grants l.r l.w l.x l.u .fetch (!t.sys) then readIt else .trap 0x05
  | none =>
    match Tab.find s.lines (lineKey tag va) with
    | some l => if grants l.r l.w l.x l.u .fetch (!t.sys) then readIt else .trap 0x05
    | none =>
      if s.isFatal k tag va .fetch then .trap 0x04
      else
        match s.translate (vaultTlb tag va) tag va .fetch (!t.sys) false with
        | (.protect, _) => .trap 0x05
        | _ => .wait (s.askWalk (t.walkFor k tag va .fetch))

/-- A fetch that traps (R119, R466). At an instruction that stands in its waiting part WAITONLY is recorded, so that ERET
does not repeat the arrival: R265 speaks of pre-emption alone (DESIGN CHOICE, log 96). -/
def State.fetchTrap (s : State) (k : Nat) (t : Team) (cause : BitVec 8) : State :=
  let s := s.setTeam k (t.detIf (cause == 0x11) 8)
  ((if cause == 0x04 then s.spendFatal k else s)).raise k
    { t.at cause (t.pc.setWidth 64) with waitOnly := t.waitOnly }

/-! ### Time -/

/-- The package evicts what the free value names: a line of L2, the entry of a directory or of a filter (R382, R383). -/
def State.evictFree (s : State) : State :=
  match Config.evict s.freeIdx with
  | none => s
  | some (.line key) => s.evictLine key
  | some (.entry region) => s.evictEntry region
  | some (.filter cl key) => s.evictFilter cl key

/-- The selected team's core loads speculatively (R181, R190): a line that the team may read is fetched, which counts as a
transfer (R394) and does nothing else; a translation that faults or refuses does nothing. -/
def State.speculate (s : State) : State :=
  match Config.speculativeLoad s.freeIdx, s.cur.bind s.team with
  | some va, some t =>
    let tag := tagOf (t.asid.setWidth 16) va
    match s.translate (vaultTlb tag va) tag va .load (!t.sys) false with
    | (.page p, kept) =>
      let s := (s.keepTlb (vaultTlb tag va) tag kept).requestLine tag va p 2 none none true
      if (Tab.find s.lines (lineKey tag va)).isSome then s.obtainLine t.core.toNat (lineKey tag va) false false else s
    | _ => s
  | _, _ => s

/-- The operand logs of the teams that run on a core. -/
def State.logsOn (s : State) (core : BitVec 8) : List (List LogEntry) :=
  (s.teams.filter fun e => e.2.core == core && e.2.stat == .running).map (·.2.pipe.log)

/-- A team may take an entry of its core's operand log: 4 are its own, 64 are shared, 32 are the most it holds (R195). -/
def State.logRoom (s : State) (t : Team) : Bool :=
  let held := t.pipe.log.length
  held < 4 || (held < 32 && (s.logsOn t.core).foldl (fun n l => n + (l.length - 4)) 0 < 64)

/-- `rows` of the core's 64 staging rows are free (R187). -/
def State.stagingRoom (s : State) (t : Team) (rows : Nat) : Bool :=
  (s.logsOn t.core).foldl (fun n l => n + (l.map (·.rows)).sum) 0 + rows ≤ 64

/-- The speculation counters after a step of `cycles` (R204): the verdicts taken in it, the cycles of cores with a team
that lacks a log entry, and free self-check firings on the issuing core; and when a core's teams last acted (R201). -/
def State.countVerdicts (s : State) (cycles : Nat) : State :=
  let add (x : W64) (n : Nat) : W64 := x + BitVec.ofNat 64 n
  let judged := s.teams.filter fun e => e.2.pipe.acted || e.2.pipe.misload + e.2.pipe.miscomp + e.2.pipe.flushed != 0
  let lacking := ((s.teams.filter fun e => e.2.stat == .running && !s.logRoom e.2).map (·.2.core)).eraseDups
  let s := judged.foldl (fun s e =>
    s.modCore e.2.core.toNat fun c =>
      { c with misload := add c.misload e.2.pipe.misload, miscomp := add c.miscomp e.2.pipe.miscomp
               flushed := add c.flushed e.2.pipe.flushed, actedAt := if e.2.pipe.acted then s.cycle else c.actedAt }) s
  let spent (t : Team) : Team :=
    { t with pipe := { t.pipe with
        misload := 0, miscomp := 0, flushed := 0, acted := false, went := none, trapped := none, flags := [] } }
  let s : State := { s with teams := s.teams.map fun e => (e.1, spent e.2) }
  let s := lacking.foldl (fun s c => s.modCore c.toNat fun r => { r with logstall := add r.logstall cycles }) s
  match s.cur.bind s.team with
  | none => s
  | some t =>
    s.modCore t.core.toNat fun c => { c with chkrecomp := add c.chkrecomp (Config.recomputations s.freeIdx) }

/-- Time passes at every step: the cycle counter advances by a free number of cycles, the counters of speculation follow
the verdicts, the package may evict a line and a TLB entry and fetch a line speculatively, and what L2 holds beyond its capacity
goes (R2, logs 3, 12, 14). -/
def State.tick (s : State) : State :=
  let n := s.freeIdx
  let s := (s.evictFree.speculate.fitSlices).countVerdicts (Config.elapsed n)
  { s with
    cycle := s.cycle + BitVec.ofNat 64 (Config.elapsed n)
    freeIdx := n + 1
    tlb := match Config.tlbEvict n with
      | none => s.tlb
      | some i => s.tlb.eraseIdx i }

end Sys2Proof.Machine
end

