-- ==== Sys2Proof/Machine/Float.lean ====
section
/-! DEFINITION. Binary floating point (spec/03 R75 to R80): exact values, RoundTo with its flags, and the arithmetic
of the lane instructions and the matrix engine. A value is an exact dyadic; a quotient or root is an integer part
and a sticky remark that something nonzero follows. -/

namespace Sys2Proof.Machine

/-- Exception flags in FPFLAGS bit order: [0] NV, [1] DZ, [2] OF, [3] UF, [4] NX (R24, R79). -/
abbrev Flags := BitVec 5

def flagNV : Flags := 0b00001#5
def flagDZ : Flags := 0b00010#5
def flagOF : Flags := 0b00100#5
def flagUF : Flags := 0b01000#5
def flagNX : Flags := 0b10000#5

/-- A rounding mode, MODE.RM (R21, R76). -/
inductive RMode where
  | rne | rtz | rup | rdn | rna
  deriving DecidableEq, Repr

/-- A binary format (R75): significand bits with the hidden bit, fraction and exponent field widths, exponent range. -/
structure FFmt where
  p : Nat
  expBits : Nat
  emin : Int
  emax : Int
  deriving DecidableEq, Repr

def fmtF32 : FFmt := ⟨24, 8, -126, 127⟩
def fmtF16 : FFmt := ⟨11, 5, -14, 15⟩
def fmtBF16 : FFmt := ⟨8, 8, -126, 127⟩

/-- The width of a format's encoding. -/
def FFmt.width (f : FFmt) : Nat := f.p + f.expBits

/-- A floating-point datum: NaN (signalling or quiet), an infinity, or a finite ±m·2^e; zero has m = 0 and a sign. -/
inductive FVal where
  | nan (signalling : Bool)
  | inf (neg : Bool)
  | fin (neg : Bool) (m : Nat) (e : Int)
  deriving DecidableEq, Repr

/-- The canonical NaN of a format (R75). -/
def FFmt.canonNaN (f : FFmt) : Nat := (2 ^ f.expBits - 1) <<< (f.p - 1) ||| 2 ^ (f.p - 2)

/-- The encoding of an infinity. -/
def FFmt.infBits (f : FFmt) (neg : Bool) : Nat :=
  (2 ^ f.expBits - 1) <<< (f.p - 1) ||| (if neg then 2 ^ (f.width - 1) else 0)

/-- The encoding of a signed zero. -/
def FFmt.zeroBits (f : FFmt) (neg : Bool) : Nat := if neg then 2 ^ (f.width - 1) else 0

/-- The encoding of the largest finite magnitude. -/
def FFmt.maxBits (f : FFmt) (neg : Bool) : Nat :=
  (((2 ^ f.expBits - 1) <<< (f.p - 1)) - 1) ||| (if neg then 2 ^ (f.width - 1) else 0)

/-- The value of an encoding (R75). -/
def FFmt.decode (f : FFmt) (b : Nat) : FVal :=
  let neg := b.testBit (f.width - 1)
  let frac := b % 2 ^ (f.p - 1)
  let ex := (b >>> (f.p - 1)) % 2 ^ f.expBits
  if ex = 2 ^ f.expBits - 1 then
    if frac = 0 then .inf neg else .nan (!frac.testBit (f.p - 2))
  else if ex = 0 then .fin neg frac (f.emin - (f.p - 1))
  else .fin neg (frac + 2 ^ (f.p - 1)) (f.emin - (f.p - 1) + (ex - 1))

/-- Whether the discarded part of a magnitude rounds away from zero: `odd` is the low kept bit, `cmp` compares the
discarded part with one half, `some` says that it is not zero (R76). -/
def roundUpMag (rm : RMode) (neg odd : Bool) (cmp : Ordering) (nonzero : Bool) : Bool :=
  match rm with
  | .rne => cmp == .gt || (cmp == .eq && odd)
  | .rna => cmp != .lt
  | .rtz => false
  | .rup => !neg && nonzero
  | .rdn => neg && nonzero

/-- |x| = (m + θ)·2^e with 0 < θ < 1 when `sticky` and θ = 0 otherwise, brought to an integer multiple of
2^(e + shift): the rounded multiple and whether it is inexact. -/
def roundAt (rm : RMode) (neg : Bool) (m : Nat) (sticky : Bool) (shift : Int) : Nat × Bool :=
  if shift ≤ 0 then (m <<< (-shift).toNat, sticky)
  else
    let sh := min shift.toNat (m.log2 + 2)
    let n := m >>> sh
    let rem := m % 2 ^ sh
    let half := 2 ^ (sh - 1)
    let cmp := if rem < half then Ordering.lt else if rem = half && !sticky then .eq else .gt
    let nonzero := rem != 0 || sticky
    (if roundUpMag rm neg (n % 2 == 1) cmp nonzero then n + 1 else n, nonzero)

/-- RoundTo of a nonzero exact real of sign `neg` and magnitude (m + θ)·2^e, as encoding and flags (R76). A sticky
magnitude must carry at least p + 2 bits in `m`. -/
def FFmt.roundMag (f : FFmt) (rm : RMode) (neg : Bool) (m : Nat) (e : Int) (sticky : Bool) : Nat × Flags :=
  let l : Int := m.log2 + e
  let sign := f.zeroBits neg
  let overflow : Nat × Flags :=
    let toInf := match rm with
      | .rne | .rna => true | .rtz => false | .rup => !neg | .rdn => neg
    (if toInf then f.infBits neg else f.maxBits neg, flagOF ||| flagNX)
  if f.emax < l then overflow
  else
    let ex := max l f.emin
    let (n, inexact) := roundAt rm neg m sticky (ex - (f.p - 1) - e)
    let field := (ex - f.emin).toNat * 2 ^ (f.p - 1) + n
    if field ≥ (2 ^ f.expBits - 1) * 2 ^ (f.p - 1) then overflow
    else
      let tiny := l < f.emin && (l + 1 < f.emin || (roundAt rm neg m sticky (l - (f.p - 1) - e)).1 < 2 ^ f.p)
      (sign + field, (if inexact then flagNX else 0) ||| (if inexact && tiny then flagUF else 0))

/-- RoundTo of an exact value (R76): NaN is canonical, an infinity or a zero keeps its sign. -/
def FFmt.round (f : FFmt) (rm : RMode) : FVal → Nat × Flags
  | .nan _ => (f.canonNaN, 0)
  | .inf neg => (f.infBits neg, 0)
  | .fin neg m e => if m = 0 then (f.zeroBits neg, 0) else f.roundMag rm neg m e false

/-- Whether an encoding is a nonzero subnormal. -/
def FFmt.subnormal (f : FFmt) (b : Nat) : Bool :=
  (b >>> (f.p - 1)) % 2 ^ f.expBits == 0 && b % 2 ^ (f.p - 1) != 0

/-- An operand as read under FTZ (R78): a subnormal is a zero of its sign. -/
def FFmt.flushIn (f : FFmt) (ftz : Bool) (b : Nat) : Nat :=
  if ftz && f.subnormal b then f.zeroBits (b.testBit (f.width - 1)) else b

/-- A result under FTZ (R78): a nonzero subnormal becomes a zero of its sign, raising UF and NX. -/
def FFmt.flushOut (f : FFmt) (ftz : Bool) (r : Nat × Flags) : Nat × Flags :=
  if ftz && f.subnormal r.1 then (f.zeroBits (r.1.testBit (f.width - 1)), r.2 ||| flagUF ||| flagNX) else r

/-- NV when a value is a signalling NaN (R77). -/
def FVal.sig : FVal → Flags
  | .nan true => flagNV
  | _ => 0

def FVal.isNaN : FVal → Bool
  | .nan _ => true
  | _ => false

def FVal.isZero : FVal → Bool
  | .fin _ m _ => m == 0
  | _ => false

def FVal.neg? : FVal → Bool
  | .nan _ => false
  | .inf n => n
  | .fin n _ _ => n

def FVal.negate : FVal → FVal
  | .nan s => .nan s
  | .inf n => .inf (!n)
  | .fin n m e => .fin (!n) m e

/-- A finite value as an exact integer multiple of 2^e. -/
def signedMant (neg : Bool) (m : Nat) : Int := if neg then -(m : Int) else m

/-- The exact sum of two values, with NV for opposite infinities (R136); a zero sum of opposite signs is +0, or −0
under RDN (R77). -/
def FVal.add (rm : RMode) : FVal → FVal → FVal × Flags
  | .nan s, b => (.nan false, (FVal.nan s).sig ||| b.sig)
  | a, .nan s => (.nan false, a.sig ||| (FVal.nan s).sig)
  | .inf a, .inf b => if a == b then (.inf a, 0) else (.nan false, flagNV)
  | .inf a, .fin .. => (.inf a, 0)
  | .fin .., .inf b => (.inf b, 0)
  | .fin na ma ea, .fin nb mb eb =>
    let e := min ea eb
    let sum := signedMant na (ma <<< (ea - e).toNat) + signedMant nb (mb <<< (eb - e).toNat)
    if sum = 0 then
      (.fin (if ma = 0 && mb = 0 && na == nb then na else rm == .rdn) 0 0, 0)
    else (.fin (sum < 0) sum.natAbs e, 0)

/-- The exact product of two values, with NV for 0 × ∞ (R136). -/
def FVal.mul : FVal → FVal → FVal × Flags
  | .nan s, b => (.nan false, (FVal.nan s).sig ||| b.sig)
  | a, .nan s => (.nan false, a.sig ||| (FVal.nan s).sig)
  | .inf a, b => if b.isZero then (.nan false, flagNV) else (.inf (a != b.neg?), 0)
  | a, .inf b => if a.isZero then (.nan false, flagNV) else (.inf (a.neg? != b), 0)
  | .fin na ma ea, .fin nb mb eb => (.fin (na != nb) (ma * mb) (ea + eb), 0)

/-- The exact a × b + d, one rounding later (R136); NV of 0 × ∞ also when d is a quiet NaN. -/
def FVal.fma (rm : RMode) (a b d : FVal) : FVal × Flags :=
  let (pr, f1) := a.mul b
  let (r, f2) := pr.add rm d
  (r, f1 ||| f2)

/-- Operands into RoundTo with FTZ on both ends (R78, R80). -/
def FFmt.finish (f : FFmt) (rm : RMode) (ftz : Bool) (r : FVal × Flags) : Nat × Flags :=
  let (b, fl) := f.flushOut ftz (f.round rm r.1)
  (b, r.2 ||| fl)

def FFmt.read (f : FFmt) (ftz : Bool) (b : Nat) : FVal := f.decode (f.flushIn ftz b)

def FFmt.fadd (f : FFmt) (rm : RMode) (ftz : Bool) (a b : Nat) : Nat × Flags :=
  f.finish rm ftz ((f.read ftz a).add rm (f.read ftz b))
def FFmt.fsub (f : FFmt) (rm : RMode) (ftz : Bool) (a b : Nat) : Nat × Flags :=
  f.finish rm ftz ((f.read ftz a).add rm (f.read ftz b).negate)
def FFmt.fmul (f : FFmt) (rm : RMode) (ftz : Bool) (a b : Nat) : Nat × Flags :=
  f.finish rm ftz ((f.read ftz a).mul (f.read ftz b))
/-- a × b + d (VFMA). -/
def FFmt.ffma (f : FFmt) (rm : RMode) (ftz : Bool) (a b d : Nat) : Nat × Flags :=
  f.finish rm ftz ((f.read ftz a).fma rm (f.read ftz b) (f.read ftz d))
/-- d − a × b (VFMS). -/
def FFmt.ffms (f : FFmt) (rm : RMode) (ftz : Bool) (a b d : Nat) : Nat × Flags :=
  f.finish rm ftz ((f.read ftz a).negate.fma rm (f.read ftz b) (f.read ftz d))

/-- Integer square root by bits: the largest r with r² ≤ n, searching `fuel` bits down. -/
def isqrtBits (n : Nat) : Nat → Nat → Nat
  | 0, r => r
  | k + 1, r =>
    let r' := r + 2 ^ k
    if r' * r' ≤ n then isqrtBits n k r' else isqrtBits n k r

def isqrt (n : Nat) : Nat := isqrtBits n (n.log2 / 2 + 1) 0

/-- RoundTo of a quotient of two positive magnitudes. -/
def FFmt.roundDiv (f : FFmt) (rm : RMode) (neg : Bool) (ma : Nat) (ea : Int) (mb : Nat) (eb : Int) : Nat × Flags :=
  let k := f.p + 4 + mb.log2
  let n := ma <<< k
  f.roundMag rm neg (n / mb) (ea - eb - k) (n % mb != 0)

/-- d / a (R146, VDIV). -/
def FFmt.fdiv (f : FFmt) (rm : RMode) (ftz : Bool) (d a : Nat) : Nat × Flags :=
  f.flushOut ftz <|
  match f.read ftz d, f.read ftz a with
  | .nan s, y => (f.canonNaN, (FVal.nan s).sig ||| y.sig)
  | x, .nan s => (f.canonNaN, x.sig ||| (FVal.nan s).sig)
  | .inf _, .inf _ => (f.canonNaN, flagNV)
  | .inf n, .fin na _ _ => (f.infBits (n != na), 0)
  | .fin nd _ _, .inf n => (f.zeroBits (nd != n), 0)
  | .fin nd md ed, .fin na ma ea =>
    if ma = 0 then if md = 0 then (f.canonNaN, flagNV) else (f.infBits (nd != na), flagDZ)
    else if md = 0 then (f.zeroBits (nd != na), 0)
    else f.roundDiv rm (nd != na) md ed ma ea

/-- √a (R146). -/
def FFmt.fsqrt (f : FFmt) (rm : RMode) (ftz : Bool) (a : Nat) : Nat × Flags :=
  f.flushOut ftz <|
  match f.read ftz a with
  | .nan s => (f.canonNaN, (FVal.nan s).sig)
  | .inf neg => if neg then (f.canonNaN, flagNV) else (f.infBits false, 0)
  | .fin neg m e =>
    if m = 0 then (f.zeroBits neg, 0)
    else if neg then (f.canonNaN, flagNV)
    else
      let k := 2 * (f.p + 4) + (if e % 2 = 0 then 0 else 1)
      let n := m <<< k
      let r := isqrt n
      f.roundMag rm false r ((e - k) / 2) (r * r != n)

/-- The ordering of two values that are no NaN, −0 = +0 (R141). -/
def FVal.key (e0 : Int) : FVal → Int
  | .nan _ => 0
  | .inf n => if n then -(2 ^ 600) else 2 ^ 600
  | .fin n m e => signedMant n (m <<< (e - e0).toNat)

/-- Exact comparison; every finite operand is a multiple of 2^-149 or coarser. -/
def FVal.lt (a b : FVal) : Bool := a.key (-160) < b.key (-160)
def FVal.eq (a b : FVal) : Bool := a.key (-160) == b.key (-160)

/-- VMIN and VMAX of float operands (R137). -/
def FFmt.fminmax (f : FFmt) (isMax ftz : Bool) (a b : Nat) : Nat × Flags :=
  let a' := f.flushIn ftz a
  let b' := f.flushIn ftz b
  let x := f.decode a'
  let y := f.decode b'
  let fl := x.sig ||| y.sig
  match x.isNaN, y.isNaN with
  | true, true => (f.canonNaN, fl)
  | true, false => (b', fl)
  | false, true => (a', fl)
  | false, false =>
    let less := x.lt y || (x.eq y && x.neg? && !y.neg?)
    (if less != isMax then a' else b', fl)

/-- A value rounded to an integer in a mode: magnitude and whether it is exact. -/
def roundInt (rm : RMode) (neg : Bool) (m : Nat) (e : Int) : Nat × Bool := roundAt rm neg m false (-e)

/-- VFLR, VCEIL, VTRNC, VRND on a float operand (R144): the sign of a zero result is the operand's. -/
def FFmt.fint (f : FFmt) (rm : RMode) (ftz : Bool) (a : Nat) : Nat × Flags :=
  let a' := f.flushIn ftz a
  match f.decode a' with
  | .nan s => (f.canonNaN, (FVal.nan s).sig)
  | .inf _ => (a', 0)
  | .fin neg m e =>
    if e ≥ 0 then (a', 0)
    else
      let (n, _) := roundInt rm neg m e
      if n = 0 then (f.zeroBits neg, 0) else ((f.roundMag .rne neg n 0 false).1, 0)

/-- VCLASS (R145): the one-hot class of an encoding. -/
def FFmt.fclass (f : FFmt) (a : Nat) : Nat :=
  match f.decode a with
  | .nan true => 2 ^ 0
  | .nan false => 2 ^ 1
  | .inf true => 2 ^ 2
  | .inf false => 2 ^ 9
  | .fin neg m _ =>
    if m = 0 then (if neg then 2 ^ 5 else 2 ^ 6)
    else if f.subnormal a then (if neg then 2 ^ 4 else 2 ^ 7)
    else (if neg then 2 ^ 3 else 2 ^ 8)

end Sys2Proof.Machine
end

