-- ==== Sys2Proof/Machine/Trans.lean ====
section
/-! DEFINITION. The exact mathematical functions of the VLONG group (spec/05 R146, spec/03 R80), rounded correctly.
Each function is enclosed between two rationals on a fixed-point grid of 2^-n that grows until both ends round
alike; where the last grid does not decide, the encoding is the free value `Config.undecided` (log 13). -/

namespace Sys2Proof.Machine

/-- An enclosure lo·2^e ≤ y ≤ hi·2^e of a positive real. -/
structure Encl where
  lo : Nat
  hi : Nat
  e : Int
  deriving DecidableEq, Repr

/-- Sum of the terms t, t·q(1), … on the grid until they vanish; `next i t` is the i-th term after t. -/
def seriesSum (next : Nat → Nat → Nat) : Nat → Nat → Nat → Nat
  | 0, _, _ => 0
  | fuel + 1, i, t => if t = 0 then 0 else t + seriesSum next fuel (i + 1) (next i t)

/-- Σ_{k odd} z^k/k on the grid 2^-n for a fixed-point z: atanh z from below, within 2n + 8 units. -/
def atanhFix (n z : Nat) : Nat :=
  let z2 := (z * z) >>> n
  let rec go : Nat → Nat → Nat → Nat
    | 0, _, _ => 0
    | fuel + 1, k, t => if t = 0 then 0 else t / k + go fuel (k + 2) ((t * z2) >>> n)
  go n 1 z

/-- arctan(1/q) on the grid: alternate terms kept apart, within 2n + 8 units either way. -/
def atanInv (n q : Nat) : Nat :=
  let rec go : Nat → Nat → Nat → Nat × Nat
    | 0, _, _ => (0, 0)
    | fuel + 1, k, t =>
      if t = 0 then (0, 0)
      else
        let (a, b) := go fuel (k + 2) (t / (q * q))
        (t / k + b, a)
  let (a, b) := go n 1 (2 ^ n / q)
  a - b

/-- ln 2 on the grid from below, within `slack n`. -/
def ln2Fix (n : Nat) : Nat := 2 * atanhFix n (2 ^ n / 3)

/-- π on the grid by Machin's formula, within `slack n` either way. -/
def piFix (n : Nat) : Nat := 16 * atanInv n 5 - 4 * atanInv n 239

/-- A bound, in grid units, on the truncation errors of one series and the constants it uses. -/
def slack (n : Nat) : Nat := 64 * (n + 16)

/-- e^r for a fixed-point 0 ≤ r < 2^n whose error is at most `err` units: an enclosure. -/
def expFix (n r err : Nat) : Encl :=
  let s := seriesSum (fun i t => ((t * r) >>> n) / i) (n + 8) 1 (2 ^ n)
  let d := slack n + 8 * err
  ⟨s - d, s + d, -(n : Int)⟩

/-- A fixed-point image of m·2^e on the grid 2^-n, from below; exact when e ≥ −n. -/
def toFix (n m : Nat) (e : Int) : Nat :=
  if 0 ≤ e + n then m <<< (e + n).toNat else m >>> (-(e + n)).toNat

/-- 2^k · e^r with k and 0 ≤ r < ln 2 taken from ±x, x = m·2^e, on a grid fine enough for the reduction. -/
def expEncl (n : Nat) (neg : Bool) (m : Nat) (e : Int) : Encl :=
  let g := n + 64 + (m.log2 + e).toNat
  let x := toFix g m e
  let l := ln2Fix g
  let k := x / l
  let err := (k + 2) * slack g
  if neg then
    -- −x = −(k + 1) ln 2 + (ln 2 − r)
    let r := l - x % l
    let ee := expFix g r err
    ⟨ee.lo, ee.hi, ee.e - (k + 1)⟩
  else
    let ee := expFix g (x % l) err
    ⟨ee.lo, ee.hi, ee.e + k⟩

/-- 2^±x for x = m·2^e. -/
def exp2Encl (n : Nat) (neg : Bool) (m : Nat) (e : Int) : Encl :=
  let g := n + 64
  let k := if 0 ≤ e then m <<< e.toNat else m >>> (-e).toNat
  let frac := toFix g (if 0 ≤ e then 0 else m % 2 ^ (-e).toNat) e
  let f := if neg then 2 ^ g - frac else frac
  let ee := expFix g ((f * ln2Fix g) >>> g) (slack g)
  ⟨ee.lo, ee.hi, ee.e + (if neg then -(k + 1 : Int) else k)⟩

/-- ln(m·2^e) as sign and enclosure; `none` when the grid cannot tell the sign. -/
def lnEncl (n m : Nat) (e : Int) : Option (Bool × Encl) :=
  let g := n + 64
  let k : Int := m.log2 + e
  let one := 2 ^ m.log2
  let z := ((m - one) <<< g) / (m + one)
  let a : Int := 2 * (atanhFix g z : Int) + k * (ln2Fix g : Int)
  let d : Int := (slack g : Int) * (k.natAbs + 2 : Nat)
  if a > d then some (false, ⟨(a - d).toNat, (a + d).toNat, -(g : Int)⟩)
  else if a < -d then some (true, ⟨(-a - d).toNat, (-a + d).toNat, -(g : Int)⟩)
  else none

/-- The quotient of two enclosures on a grid of `n` bits below. -/
def Encl.div (n : Nat) (a b : Encl) : Encl :=
  ⟨(a.lo <<< n) / b.hi, (a.hi <<< n) / b.lo + 1, a.e - b.e - n⟩

/-- log2(m·2^e). -/
def log2Encl (n m : Nat) (e : Int) : Option (Bool × Encl) :=
  match lnEncl n m e with
  | none => none
  | some (s, a) =>
    let l := ln2Fix (n + 64)
    let d := slack (n + 64)
    some (s, a.div n ⟨l - d, l + d, -((n + 64 : Nat) : Int)⟩)

/-- The positive and the negative terms of a sine (`odd`) or cosine series of a fixed-point r. -/
def trigTerms (n r : Nat) (odd : Bool) : Nat × Nat :=
  let r2 := (r * r) >>> n
  let rec go : Nat → Nat → Nat → Nat × Nat
    | 0, _, _ => (0, 0)
    | fuel + 1, k, t =>
      if t = 0 then (0, 0)
      else
        let (a, b) := go fuel (k + 2) (((t * r2) >>> n) / ((k + 1) * (k + 2)))
        (t + b, a)
  if odd then go (n + 8) 1 r else go (n + 8) 0 (2 ^ n)

/-- sin or cos of ±m·2^e: quadrant reduction with as many bits of π as the argument needs (R146: exact argument
reduction); sign and enclosure, `none` when the grid cannot tell the sign. -/
def trigEncl (n : Nat) (cosine neg : Bool) (m : Nat) (e : Int) : Option (Bool × Encl) :=
  let g := n + 64 + 2 * (m.log2 + e).toNat
  let x := toFix g m e
  let hp := piFix g / 2
  let q := x / hp
  let err := (q + 2) * slack g
  let r := x - q * hp
  let quad := (q + (if cosine then 1 else 0)) % 4
  let (a, b) := trigTerms g r (quad % 2 = 0)
  let v : Int := (a : Int) - b
  let d : Int := ((slack g + 4 * err : Nat) : Int)
  let flip := (quad ≥ 2) != (neg && !cosine)
  if v > d then some (flip, ⟨(v - d).toNat, (v + d).toNat, -(g : Int)⟩)
  else if v < -d then some (!flip, ⟨(-v - d).toNat, (-v + d).toNat, -(g : Int)⟩)
  else none

/-- An enclosure scaled to an integer grid 2^-g, ends rounded outwards. -/
def Encl.onGrid (g : Nat) (a : Encl) : Nat × Nat :=
  (toFix g a.lo a.e, toFix g a.hi a.e + 1)

/-- tanh of x = m·2^e > 0: (E − 1)/(E + 1) with E = e^2x. -/
def tanhEncl (n m : Nat) (e : Int) : Encl :=
  let g := n + 64
  let (lo, hi) := (expEncl g false m (e + 1)).onGrid g
  let one := 2 ^ g
  ⟨((lo - one) <<< n) / (hi + one), ((hi - one) <<< n) / (lo + one) + 1, -(n : Int)⟩

/-- 1/(1 + e^-x) of ±m·2^e. -/
def sigmEncl (n : Nat) (neg : Bool) (m : Nat) (e : Int) : Encl :=
  let g := n + 64
  let one := 2 ^ g
  if neg then
    -- E/(1 + E) with E = e^-|x|, relative to E
    let ee := expEncl g true m e
    let (lo, hi) := ee.onGrid g
    ⟨(ee.lo <<< g) / (one + hi), (ee.hi <<< g) / (one + lo) + 1, ee.e⟩
  else
    let (lo, hi) := (expEncl g true m e).onGrid g
    ⟨(one <<< n) / (one + hi), (one <<< n) / (one + lo) + 1, -(n : Int)⟩

/-- The functions of the VLONG group that take one operand (R146). -/
inductive LongFn where
  | rcp | sqrt | rsq | exp2 | log2 | sin | cos | tanh | sigm | exp | log
  deriving DecidableEq, Repr

/-- The FN5 number of a function (R60). -/
def LongFn.code : LongFn → Nat
  | .rcp => 1 | .sqrt => 2 | .rsq => 3 | .exp2 => 4 | .log2 => 5 | .sin => 6 | .cos => 7 | .tanh => 8
  | .sigm => 9 | .exp => 10 | .log => 11

/-- A positive magnitude too large or too small for any format to tell from its neighbours, as a sticky value. -/
def farValue (large : Bool) : Encl := ⟨2 ^ 40, 2 ^ 40, if large then 1000 else -1000⟩

/-- A positive value just below one, closer to it than any format can tell. -/
def belowOne : Encl := ⟨2 ^ 80 - 1, 2 ^ 80 - 1, -80⟩

/-- Sign and enclosure on a grid of `n` bits of a transcendental value at x = ±m·2^e, x ≠ 0. Every such value is
irrational, so the open interval of a sticky magnitude holds it. -/
def LongFn.encl (fn : LongFn) (n : Nat) (neg : Bool) (m : Nat) (e : Int) : Option (Bool × Encl) :=
  let l : Int := m.log2 + e
  let small := (-l).toNat
  match fn with
  | .exp =>
    if l ≥ 8 then some (false, farValue (!neg)) else some (false, expEncl (n + small) neg m e)
  | .exp2 =>
    if l ≥ 8 then some (false, farValue (!neg)) else some (false, exp2Encl (n + small) neg m e)
  | .log => lnEncl n m e
  | .log2 => log2Encl n m e
  | .sin => trigEncl (n + 3 * small) false neg m e
  | .cos => trigEncl (n + 2 * small) true neg m e
  | .tanh => some (neg, if l ≥ 5 then belowOne else tanhEncl (n + 3 * small) m e)
  | .sigm =>
    if l ≥ 8 then some (false, if neg then farValue false else belowOne)
    else some (false, sigmEncl (n + small) neg m e)
  | .rcp | .sqrt | .rsq => none

/-- Try one grid after another; a result is decided when both ends of the enclosure round alike. -/
def transRound (f : FFmt) (rm : RMode) (fn : LongFn) (neg : Bool) (m : Nat) (e : Int) :
    List Nat → Option (Nat × Flags)
  | [] => none
  | n :: rest =>
    match fn.encl n neg m e with
    | none => transRound f rm fn neg m e rest
    | some (s, a) =>
      if a.lo.log2 < f.p + 2 then transRound f rm fn neg m e rest
      else
        let r := f.roundMag rm s a.lo a.e true
        if a.lo = a.hi || r = f.roundMag rm s (a.hi - 1) a.e true then some r
        else transRound f rm fn neg m e rest

/-- The grids tried, in bits: 64 doubled 57 times. Every value that comes here is irrational (Lindemann), so some grid decides
it; that one of these does is not proved, though the hardest operands of binary32 are known to need less than the second
(PRESUMED, log 13). -/
def transGrids : List Nat := (List.range 58).map fun i => 64 * 2 ^ i

/-- A transcendental value at a nonzero finite operand, rounded once. -/
def transValue (f : FFmt) (rm : RMode) (fn : LongFn) (neg : Bool) (m : Nat) (e : Int) (code : Nat) : Nat × Flags :=
  match transRound f rm fn neg m e transGrids with
  | some r => r
  | none => ((Config.undecided fn.code (BitVec.ofNat 32 code)).toNat % 2 ^ f.width, flagNX)

/-- The exponent k when m·2^e is 2^k. -/
def powerOfTwo (m : Nat) (e : Int) : Option Int := if m = 2 ^ m.log2 then some (m.log2 + e) else none

/-- An integer as an exact value of the format, rounded once. -/
def FFmt.ofInt (f : FFmt) (rm : RMode) (v : Int) : Nat × Flags :=
  if v = 0 then (f.zeroBits false, 0) else f.roundMag rm (v < 0) v.natAbs 0 false

/-- f(x) of R146 at an operand read as `x`, rounded once to the format; `code` is its encoding. -/
def longValue (f : FFmt) (rm : RMode) (fn : LongFn) (x : FVal) (code : Nat) : Nat × Flags :=
  let one := (f.ofInt rm 1).1
  match fn, x with
  | _, .nan s => (f.canonNaN, (FVal.nan s).sig)
  | .rcp, .inf n => (f.zeroBits n, 0)
  | .rcp, .fin n m e => if m = 0 then (f.infBits n, flagDZ) else f.roundDiv rm n 1 0 m e
  | .sqrt, .inf n => if n then (f.canonNaN, flagNV) else (f.infBits false, 0)
  | .sqrt, .fin _ _ _ => f.fsqrt rm false code
  | .rsq, .inf n => if n then (f.canonNaN, flagNV) else (f.zeroBits false, 0)
  | .rsq, .fin n m e =>
    if m = 0 then (f.infBits n, flagDZ)
    else if n then (f.canonNaN, flagNV)
    else
      -- 1/√(m·2^e): the root of 2^k/m with k + e even
      let k := 2 * (f.p + 4) + 2 * m.log2 + (if e % 2 = 0 then 0 else 1)
      let q := 2 ^ k / m
      let r := isqrt q
      f.roundMag rm false r ((-e - k) / 2) (r * r != q || 2 ^ k % m != 0)
  | .exp2, .inf n | .exp, .inf n => if n then (f.zeroBits false, 0) else (f.infBits false, 0)
  | .exp2, .fin n m e =>
    if m = 0 then (one, 0)
    else if 0 ≤ e || m % 2 ^ (-e).toNat = 0 then
      let k := if (m.log2 : Int) + e ≥ 12 then 4096 else if 0 ≤ e then m <<< e.toNat else m >>> (-e).toNat
      f.roundMag rm false 1 (if n then -(k : Int) else k) false
    else transValue f rm fn n m e code
  | .exp, .fin n m e => if m = 0 then (one, 0) else transValue f rm fn n m e code
  | .log2, .inf n | .log, .inf n => if n then (f.canonNaN, flagNV) else (f.infBits false, 0)
  | .log2, .fin n m e =>
    if m = 0 then (f.infBits true, flagDZ)
    else if n then (f.canonNaN, flagNV)
    else match powerOfTwo m e with
      | some k => f.ofInt rm k
      | none => transValue f rm fn n m e code
  | .log, .fin n m e =>
    if m = 0 then (f.infBits true, flagDZ)
    else if n then (f.canonNaN, flagNV)
    else if powerOfTwo m e = some 0 then (f.zeroBits false, 0)
    else transValue f rm fn n m e code
  | .sin, .inf _ | .cos, .inf _ => (f.canonNaN, flagNV)
  | .sin, .fin n m e => if m = 0 then (f.zeroBits n, 0) else transValue f rm fn n m e code
  | .cos, .fin n m e => if m = 0 then (one, 0) else transValue f rm fn n m e code
  | .tanh, .inf n => ((f.ofInt rm (if n then -1 else 1)).1, 0)
  | .tanh, .fin n m e => if m = 0 then (f.zeroBits n, 0) else transValue f rm fn n m e code
  | .sigm, .inf n => if n then (f.zeroBits false, 0) else (one, 0)
  | .sigm, .fin n m e =>
    if m = 0 then ((f.roundMag rm false 1 (-1) false).1, 0) else transValue f rm fn n m e code

/-- The value of one encoding converted to another format, rounded once. -/
def FFmt.convert (src dst : FFmt) (rm : RMode) (a : Nat) : Nat × Flags :=
  let v := src.decode a
  let r := dst.round rm v
  (r.1, r.2 ||| v.sig)

/-- A VLONG function of one operand (R80): F32 rounds once; F16 and bfloat16 go through a rounding to F32, FTZ
acting on the operand and the final result only and UF taken from the second rounding alone. -/
def FFmt.flong (f : FFmt) (rm : RMode) (ftz : Bool) (fn : LongFn) (a : Nat) : Nat × Flags :=
  let a' := f.flushIn ftz a
  if f = fmtF32 then f.flushOut ftz (longValue f rm fn (f.decode a') a')
  else
    let wide := (f.convert fmtF32 .rne a').1
    let (r1, f1) := longValue fmtF32 rm fn (match f.decode a' with | .nan s => .nan s | v => v)
      (if (f.decode a').isNaN then a' else wide)
    let (r2, f2) := f.flushOut ftz (fmtF32.convert f rm r1)
    (r2, (f1 &&& ~~~flagUF) ||| f2)

end Sys2Proof.Machine
end

