-- ==== Sys2Proof/Machine/Operands.lean ====
section
/-! DEFINITION. Operand forms: mask blocks (R109), the guard (R16 to R20), element types (R74, R129), register rows
(R33 to R38). -/

namespace Sys2Proof.Machine

/-! ### Mask blocks (R109) -/

/-- The scalar fields of the block at a field value. -/
def Team.blockFields (t : Team) (f : Nat) : List Nat := (List.range t.blockRegs).map (f + ·)

/-- Whether the block at a field value runs past s63 or k63 (check 10). -/
def Team.blockBeyond (t : Team) (f : Nat) : Bool := 64 < f % 64 + t.blockRegs

/-- Registers of a block joined, the first lowest. -/
def joinRegs : List W64 → Nat
  | [] => 0
  | r :: rs => r.toNat + 2 ^ 64 * joinRegs rs

/-- The mask bits of the block at a source field value, as a number of L bits. -/
def Team.block (t : Team) (f : Nat) : Nat :=
  joinRegs ((t.blockFields f).map fun n => t.src (BitVec.ofNat 7 n)) % 2 ^ t.lanes

/-- Write consecutive registers from a number. -/
def Team.setRegs (t : Team) (n v : Nat) : Nat → Team
  | 0 => t
  | m + 1 => (t.setS n (BitVec.ofNat 64 v)).setRegs (n + 1) (v / 2 ^ 64) m

/-- Write the mask bits of the block at `n`; when L = 32 bits [63:32] become 0 (R115). -/
def Team.setBlock (t : Team) (n v : Nat) : Team := t.setRegs n (v % 2 ^ t.lanes) t.blockRegs

/-! ### The guard (R16, R17) -/

def Team.gen (t : Team) : Bool := t.mode.getLsbD 16
def Team.ginv (t : Team) : Bool := t.mode.getLsbD 9
def Team.gb (t : Team) : Nat := bitsOf t.mode.toNat 15 10

/-- Mask word `w` of the block at s register `n`. -/
def Team.maskWord (t : Team) (n w : Nat) : W32 :=
  BitVec.ofNat 32 ((t.sreg (n + w / 2)).toNat >>> (32 * (w % 2)))

/-- EffWord(w) (R17). -/
def Team.effWord (t : Team) (w : Nat) : W32 :=
  if !t.gen then 0xFFFFFFFF
  else if t.ginv then ~~~(t.maskWord t.gb w)
  else t.maskWord t.gb w

/-- The guard block runs past s63 (R18). -/
def Team.guardBeyond (t : Team) : Bool := t.gen && 64 < t.gb + t.blockRegs

/-- The passes that issue from the resume pass on, in ascending w, with their effective words (R14, R15). -/
def Team.issued (t : Team) : List (Nat × W32) :=
  ((List.range t.words).filter (t.pass ≤ ·)).map (fun w => (w, t.effWord w)) |>.filter (·.2 != 0)

/-- Active lanes of a word, as bit numbers in rising order. -/
def activeBits (eff : W32) : List Nat := (List.range 32).filter (eff.getLsbD ·)

/-- The lowest active lane of a pass. -/
def firstLane (w : Nat) (eff : W32) : Nat := 32 * w + (activeBits eff).headD 0

/-! ### Element types (R74) -/

inductive ElemType where
  | i32 | n32 | f32 | f16x2 | b16x2 | i16x2 | n16x2 | i64 | n64
  deriving DecidableEq, Repr

/-- The element type of an ET value; 9 to 15 are reserved. -/
def ElemType.ofCode : Nat → Option ElemType
  | 0 => some .i32 | 1 => some .n32 | 2 => some .f32 | 3 => some .f16x2 | 4 => some .b16x2
  | 5 => some .i16x2 | 6 => some .n16x2 | 7 => some .i64 | 8 => some .n64 | _ => none

/-- Width of an element. -/
def ElemType.width : ElemType → Nat
  | .i32 | .n32 | .f32 => 32
  | .f16x2 | .b16x2 | .i16x2 | .n16x2 => 16
  | .i64 | .n64 => 64

/-- Whether a lane holds two elements. -/
def ElemType.two : ElemType → Bool
  | .f16x2 | .b16x2 | .i16x2 | .n16x2 => true
  | _ => false

/-- Whether an element takes a register pair (R37). -/
def ElemType.wide : ElemType → Bool
  | .i64 | .n64 => true
  | _ => false

/-- The float format of a float type. -/
def ElemType.fmt : ElemType → Option FFmt
  | .f32 => some fmtF32
  | .f16x2 => some fmtF16
  | .b16x2 => some fmtBF16
  | _ => none

/-- Whether the type is a two's-complement integer type. -/
def ElemType.signed : ElemType → Bool
  | .i32 | .i16x2 | .i64 => true
  | _ => false

/-- An integer element's value. -/
def ElemType.int (e : ElemType) (x : Nat) : Int :=
  let x := x % 2 ^ e.width
  if e.signed && 2 ^ (e.width - 1) ≤ x then (x : Int) - 2 ^ e.width else x

/-- The range of an integer type. -/
def ElemType.lo (e : ElemType) : Int := if e.signed then -(2 ^ (e.width - 1)) else 0
def ElemType.hi (e : ElemType) : Int := if e.signed then 2 ^ (e.width - 1) - 1 else 2 ^ e.width - 1

/-- The raw bits of an integer, modulo 2^w. -/
def ElemType.wrap (e : ElemType) (x : Int) : Nat := (x % 2 ^ e.width).toNat

/-- An exact integer clamped to the type's range. -/
def ElemType.clamp (e : ElemType) (x : Int) : Nat := e.wrap (max e.lo (min e.hi x))

/-- An exact integer fitted to the element (R130). -/
def ElemType.fit (e : ElemType) (sat : Bool) (x : Int) : Nat := if sat then e.clamp x else e.wrap x

/-- The rounding mode of an RM value; 5 to 7 are reserved. -/
def RMode.ofCode : Nat → Option RMode
  | 0 => some .rne | 1 => some .rtz | 2 => some .rup | 3 => some .rdn | 4 => some .rna | _ => none

/-- MODE as a lane instruction consults it (R21). -/
structure Ctx where
  et : ElemType
  rm : RMode
  ftz : Bool
  sat : Bool
  deriving DecidableEq, Repr

def Team.et (t : Team) : Option ElemType := ElemType.ofCode (t.mode.toNat % 16)
def Team.rm (t : Team) : Option RMode := RMode.ofCode (bitsOf t.mode.toNat 6 4)
def Team.ftz (t : Team) : Bool := t.mode.getLsbD 8
def Team.sat (t : Team) : Bool := t.mode.getLsbD 7

/-- The context of an instruction; a reserved field that it does not consult stands as I32 or RNE. -/
def Team.ctx (t : Team) : Ctx :=
  { et := t.et.getD .i32, rm := t.rm.getD .rne, ftz := t.ftz, sat := t.sat }

/-- The lane function of an element function (R128): both elements of a two-element type, flags united. -/
def laneFn (e : ElemType) (f : Nat → Nat → Nat → Nat × Flags) (a b d : Nat) : Nat × Flags :=
  if e.two then
    let r0 := f (a % 2 ^ 16) (b % 2 ^ 16) (d % 2 ^ 16)
    let r1 := f (a / 2 ^ 16 % 2 ^ 16) (b / 2 ^ 16 % 2 ^ 16) (d / 2 ^ 16 % 2 ^ 16)
    (r0.1 + 2 ^ 16 * r1.1, r0.2 ||| r1.2)
  else f a b d

/-- Extend of R150 and R152. -/
def extend (e : ElemType) (v : Nat) : W64 :=
  if e == .i32 then (BitVec.ofNat 32 v).signExtend 64 else BitVec.ofNat 64 v

/-! ### Register rows (R33 to R38) -/

def rowKey (r w : Nat) : Nat := r * 32 + w

/-- The row of a register in a word. -/
def Team.row (t : Team) (r w : Nat) : Option Row := Tab.find t.rows (rowKey r w)

/-- The trap of a pass that reads an unmapped register (R36). For a vector access, too, TRAPLANE is 32w and not the lowest active
lane, which R160 gives the traps that it lists (DEDUCED, log 106). -/
def Team.unmapped (t : Team) (r w : Nat) : TrapRec :=
  { t.at 0x02 (BitVec.ofNat 64 r) with pass := w, lane := 32 * w }

/-- The trap of a pass that reads a row with an uncorrectable error (R401). -/
def Team.rowPoison (t : Team) (r w : Nat) : TrapRec :=
  { t.at 0x11 (BitVec.ofNat 64 (2 ^ 63 + r)) with pass := w, lane := 32 * w }

/-- Whether a row holds an uncorrectable error. -/
def Team.rowBad (t : Team) (r w : Nat) : Bool := t.rowErr.any fun e => e / 1024 == r && e % 1024 / 32 == w

/-- Check that the registers of a pass's sources are mapped, then that no row of theirs is in error. Of several the first
of `regs` is named: R36 gives no order, and A, B, D, a pair's low register first, an offset A before store data, is the
model's choice, as is B before A for VSHFL, whose B says which rows of A are read (DESIGN CHOICE, log 89). -/
def Team.readable (t : Team) (regs : List Nat) (w : Nat) : Option TrapRec :=
  match regs.find? fun r => (t.row r w).isNone with
  | some r => some (t.unmapped r w)
  | none => (regs.find? fun r => t.rowBad r w).map fun r => t.rowPoison r w

/-- The element that lane `b` of word `w` holds in a register, or in a pair. -/
def Team.elem (t : Team) (wide : Bool) (r w b : Nat) : Nat :=
  let word (r : Nat) : Nat := (((t.row r w).getD (Vector.replicate 32 0)).getD b 0).toNat
  if wide then word r + 2 ^ 32 * word (r + 1) else word r

/-- The registers that a field names: one, or a pair. -/
def pairOf (wide : Bool) (r : Nat) : List Nat := if wide then [r, r + 1] else [r]

/-- Note in a transaction which lanes wrote or released a row (R240). -/
def Team.touch (t : Team) (key : Nat) (eff : W32) : Team :=
  if t.txstat.active then
    { t with tx := { t.tx with touched := Tab.put t.tx.touched key (eff ||| (Tab.find t.tx.touched key).getD 0) } }
  else t

/-- Write the active lanes of a row; the others keep their value, or read zero in a new row (R33). -/
def Team.putRow (t : Team) (r w : Nat) (eff : W32) (v : Nat → W32) : Team :=
  let old := (t.row r w).getD (Vector.replicate 32 0)
  let row : Row := Vector.ofFn fun i : Fin 32 => if eff.getLsbD i then v i else old.getD i 0
  { t with
    rows := Tab.put t.rows (rowKey r w) row
    rowErr := t.rowErr.filter fun e => !(e / 1024 == r && e % 1024 / 32 == w && eff.getLsbD (e % 32)) }.touch
    (rowKey r w) eff

/-- Write a destination element of each active lane, to a register or to a pair. -/
def Team.putElems (t : Team) (wide : Bool) (r w : Nat) (eff : W32) (v : Nat → Nat) : Team :=
  let t := t.putRow r w eff fun b => BitVec.ofNat 32 (v b)
  if wide then t.putRow (r + 1) w eff fun b => BitVec.ofNat 32 (v b / 2 ^ 32) else t

/-- Release a row (R34). -/
def Team.dropRow (t : Team) (eff : W32) (w r : Nat) : Team :=
  match t.row r w with
  | none => t
  | some v =>
    { t with
      rows := Tab.erase t.rows (rowKey r w)
      rowErr := t.rowErr.filter (· / 32 != rowKey r w)
      tx :=
        if t.txstat.active then
          { t.tx with
            deferred := Tab.put t.tx.deferred (rowKey r w) v
            deferredErr := t.tx.deferredErr.filter (· / 32 != rowKey r w) ++ t.rowErr.filter (· / 32 == rowKey r w) }
        else t.tx }.touch
      (rowKey r w) eff

/-- Rows that the writes of a pass need newly: the destinations with no mapping in the word. -/
def Team.newRows (t : Team) (regs : List Nat) (w : Nat) : Nat := (regs.filter fun r => (t.row r w).isNone).length

/-! ### Free rows (R38, R187, R202, R264) -/

/-- Rows that a gang which stands row-bound sets aside on a core for its teams that have not ended (R202). -/
def Gang.setAside (g : Gang) (core p : Nat) : Nat :=
  if g.aside && (g.stat == .placed || g.stat == .resident) then
    (g.groups.filter fun e => Tab.find g.coreOf e.1 == some (core % 4)).foldl
      (fun n e => n + (e.2.filter g.remaining.contains).length * 128 * p) 0
  else 0

/-- Lines retained for the checkpoint of a team (R236). -/
def Team.retained (t : Team) : Nat :=
  (t.tx.touched.filter fun e => (Tab.find t.tx.ckRows e.1).isSome).length

/-- Rows are set aside for a team's gang where it stands (R202). -/
def State.isAside (s : State) (t : Team) : Bool :=
  match s.gang t.gangKey with
  | some g => g.aside
  | none => false

/-- Region rows of a team's core in use beside those set aside, with the team as it stands, and how many the region has
for them (R202). -/
def State.regionUse (s : State) (t : Team) : Nat × Nat :=
  let c := t.core.toNat
  let aside := s.gangs.foldl (fun m e =>
    if 4 * e.2.cluster.toNat ≤ c && c < 4 * e.2.cluster.toNat + 4 then
      m + e.2.setAside c ((((s.grid e.2.seq).map fun q => 2 ^ q.packet.lanesLog / 32)).getD 1)
    else m) 0
  let used := s.teams.foldl (fun m e =>
    let u := if e.1 == t.key then t else e.2
    if u.core == t.core && u.stat != .saved && !s.isAside u then m + u.rows.length else m) 0
  (used, (s.core c).poolReg * 512 - aside)

/-- The region of the team's core has `n` free rows for it; a gang with rows set aside uses those (R202). -/
def State.regionFor (s : State) (t : Team) (n : Nat) : Bool :=
  n == 0 || s.isAside t || (let (used, total) := s.regionUse t; decide (used + n ≤ total))

/-- Another team of the core holds rows of the save reserve (R264): some rows stand beyond the region. -/
def State.reserveHeld (s : State) (t : Team) : Bool :=
  (s.teams.any fun e => e.1 != t.key && e.2.core == t.core && e.2.reserve) &&
    (let (used, total) := s.regionUse t; decide (total < used))

/-- The core has `n` rows more for a team as it stands: region rows, or, while its save routine or restore entry runs and
no other team holds any, the 32 lines of the save reserve (R201, R264). -/
def State.rowsFor (s : State) (t : Team) (n : Nat) : Bool :=
  s.regionFor t n ||
    (t.saving && !s.reserveHeld t && (let (used, total) := s.regionUse t; decide (used + n ≤ total + 32)))

/-- The team holds reserve rows once a pass that needed `n` new rows found no region row for them (R264). -/
def State.takeReserve (s : State) (t : Team) (n : Nat) : Team :=
  if s.regionFor t n then t else { t with reserve := true }

/-- The save reserves of cores on which no team holds any return to their cache regions (R201 step 3). -/
def State.returnReserves (s : State) : State :=
  { s with cores := s.cores.map fun e =>
      if e.2.reserve && !(s.teams.any fun x => x.2.reserve && x.2.core.toNat == e.1) then (e.1, { e.2 with reserve := false }) else e }

/-- The save reserve of each core follows its use (R201, R264): while a team holds rows beyond the region, 32 lines of the cache
region are evicted for them; they return once no row stands there, after the save or with the rows of a restored team. -/
def State.settleReserve (s : State) : State :=
  ((s.teams.filter (·.2.reserve)).foldl (fun s e =>
    let c := e.2.core.toNat
    let (used, total) := s.regionUse e.2
    if total < used then
      if (s.core c).reserve then s else (s.modCore c fun r => { r with reserve := true }).pinLines c
    else s.modTeam e.1 fun t => { t with reserve := false }) s).returnReserves

/-- The groups of a gang that stand on a core, while it is placed or resident there. -/
def Gang.groupsOn (g : Gang) (core : Nat) : List Nat :=
  if core / 4 == g.cluster.toNat && (g.stat == .placed || g.stat == .resident) then
    (g.groups.map (·.1)).filter fun e => Tab.find g.coreOf e == some (core % 4)
  else []

/-- Scratchpad lines pinned on a core (R212, R214). -/
def State.pinned (s : State) (core : Nat) : Nat :=
  s.gangs.foldl (fun n e =>
    n + (e.2.groupsOn core).length * ((((s.grid e.2.seq).map (·.packet.scratch)).getD 0 + 127) / 128)) 0

/-- Whether the core's cache region has a retention line for a row more (R214, R236). -/
def State.retentionFor (s : State) (t : Team) (n : Nat) : Bool :=
  if n == 0 then true
  else
    let c := t.core.toNat
    let r := s.core c
    let lines := (128 - r.poolReg - r.poolAcc) * 512 - s.pinned c
    let used := s.teams.foldl (fun m e =>
      let u := if e.1 == t.key then t else e.2
      if u.core == t.core then m + u.retained else m) 0
    used + n ≤ lines

/-- A row of the checkpoint that the transaction has not touched: it is retained when it is replaced or released (R236). -/
def Team.toRetain (t : Team) (key : Nat) : Bool :=
  t.txstat.active && (Tab.find t.tx.ckRows key).isSome && (Tab.find t.tx.touched key).isNone

/-- Whether a pass that writes `dst` and releases `gone` in word `w`, after which the rows `late` go, finds the rows and
retention lines it needs. A row that the pass itself releases serves no new row of its own: R187 does not say whether it may
(DESIGN CHOICE, log 104). -/
def State.roomFor (s : State) (t : Team) (dst gone : List Nat) (w : Nat) (late : List Nat := []) : Bool :=
  let kept := (((dst ++ gone).map (rowKey · w) ++ late).eraseDups).filter t.toRetain
  s.rowsFor t (t.newRows dst w) && s.retentionFor t kept.length

/-- A pass of the team waits for a row or a retention line that the core does not have (R42, R201). -/
def State.rowStalled (s : State) (t : Team) : Bool :=
  match t.rowWait with
  | none => false
  | some r => !s.roomFor t r.dst r.gone r.w r.late

end Sys2Proof.Machine
end

