-- ==== Sys2Proof/Machine/Flags.lean ====
section
/-! DEFINITION. Flag computations: the floating-point exception window, FPFLAGS and its trap (R24, R132 to R134), and
the conditions of compares and branches (R113, R141). -/

namespace Sys2Proof.Machine

/-- MODE.TE in FPFLAGS bit order (R21). -/
def Team.te (t : Team) : Flags := BitVec.ofNat 5 (bitsOf t.mode.toNat 21 17)

/-- The highest-priority class of a set: NV, DZ, OF, UF, NX (R133). -/
def topClass (fl : Flags) : Flags := fl &&& (-fl)

/-- The earlier of two events: by pass, then by lane. -/
def Raised.before (a b : Raised) : Bool := a.w < b.w || (a.w == b.w && decide (a.lane < b.lane))

/-- The earliest event that raised a class. -/
def firstOf (c : Flags) : List Raised → Option Raised
  | [] => none
  | r :: t =>
    match firstOf c t with
    | none => if r.fl &&& c != 0 then some r else none
    | some q => if r.fl &&& c != 0 && !q.before r then some r else some q

/-- Complete an instruction with the window `ev` (R132, R133): FPFLAGS, then the trap of an enabled class, with
DONE = 1, or retirement. `t` carries the instruction's results and stands at its address. -/
def State.complete (s : State) (k : Nat) (t : Team) (ev : List Raised) : Result :=
  let all := raisedAll ev
  let t := { t.orFlags all with prog := {} }
  let enabled := all &&& t.te
  if enabled == 0 then s.commit k t.retire
  else
    let c := topClass enabled
    let at_ := (firstOf c ev).getD { w := 0, lane := 0, fl := 0 }
    .next ((s.setTeam k t).raise k
      { t.at 0x06 (c.setWidth 64 ||| (all.setWidth 64 <<< 8)) with done := true, pass := at_.w, lane := at_.lane })

/-- A scalar condition of SCMP (R113). -/
def scalarCond (c : BitVec 3) (a b : W64) : Bool :=
  match c.toNat with
  | 0 => a == b
  | 1 => a != b
  | 2 => a.slt b
  | 3 => !a.slt b
  | 4 => a.ult b
  | 5 => !a.ult b
  | 6 => a &&& b != 0
  | _ => a &&& b == 0

/-- A condition of VCMP on float elements with its flags (R141). -/
def floatCond (f : FFmt) (ftz : Bool) (c : BitVec 3) (a b : Nat) : Bool × Flags :=
  let x := f.read ftz a
  let y := f.read ftz b
  let sig := x.sig ||| y.sig
  if x.isNaN || y.isNaN then
    (c == 1 || c == 7, if 2 ≤ c.toNat && c.toNat ≤ 5 then flagNV else sig)
  else
    (match c.toNat with
      | 0 => x.eq y
      | 1 => !x.eq y
      | 2 => x.lt y
      | 3 => x.lt y || x.eq y
      | 4 => y.lt x
      | 5 => y.lt x || x.eq y
      | 6 => true
      | _ => false, 0)

/-- A condition of VCMP on integer elements (R141). -/
def intCond (e : ElemType) (c : BitVec 3) (a b : Nat) : Bool :=
  let x := e.int a
  let y := e.int b
  match c.toNat with
  | 0 => x == y
  | 1 => x != y
  | 2 => x < y
  | 3 => x ≤ y
  | 4 => y < x
  | 5 => y ≤ x
  | 6 => a < b
  | _ => b ≤ a

/-- A condition of VCMP on an element (R141). -/
def elemCond (x : Ctx) (c : BitVec 3) (a b : Nat) : Bool × Flags :=
  match x.et.fmt with
  | some f => floatCond f x.ftz c a b
  | none => (intCond x.et c a b, 0)

/-- The condition of a lane: under a two-element type it holds for both elements, flags united (R140). -/
def laneCond (x : Ctx) (c : BitVec 3) (a b : Nat) : Bool × Flags :=
  if x.et.two then
    let r0 := elemCond x c (a % 2 ^ 16) (b % 2 ^ 16)
    let r1 := elemCond x c (a / 2 ^ 16 % 2 ^ 16) (b / 2 ^ 16 % 2 ^ 16)
    (r0.1 && r1.1, r0.2 ||| r1.2)
  else elemCond x c a b

end Sys2Proof.Machine
end

