-- ==== Sys2Proof/Machine/Lanes.lean ====
section
/-! DEFINITION. How a per-lane instruction runs (R14 to R20, R34 to R37, R64, R127 to R134): its checks, its passes in
ascending order, its exception window. -/

namespace Sys2Proof.Machine

/-- What a per-lane instruction does, for a team that passes its checks. -/
structure Lanes where
  /-- registers whose row each issued pass reads -/
  reads : List Nat := []
  /-- registers that each issued pass writes -/
  dst : List Nat := []
  /-- registers that each issued pass releases after reading (R34, R35) -/
  gone : List Nat := []
  /-- a further trap of the pass, after those of unmapped reads: word, effective mask -/
  extra : Team → Nat → W32 → Option TrapRec := fun _ _ _ => none
  /-- the pass on the active lanes of a word: the team after it, and the flags by lane -/
  body : Team → Nat → W32 → Team × List (Nat × Flags)
  /-- the effect after the last pass -/
  finish : Team → Team := id
  /-- registers whose rows `finish` releases, in every word that has issued -/
  late : List Nat := []
  /-- whether the fold of its passes is a scalar operation with a check of its own (VREDW, R127) -/
  fold : Bool := false

/-- How the passes end. -/
inductive Ended where
  | done
  | trap (r : TrapRec)
  | stall (r : RowNeed)
  deriving DecidableEq, Repr

/-- The pipeline error of an issued pass (R194, R259): at the vector group that checks it, or at the scalar checker where
the fold of VREDW fails. -/
def Lanes.errorAt (p : Lanes) (t : Team) (c : SelfCheck) (w : Nat) (eff : W32) : TrapRec :=
  if p.fold && c.fold then { t.at 0x0E (c.info 4) with pass := w }
  else { t.at 0x0E (c.info c.group.toNat) with pass := w, lane := firstLane w eff }

/-- The first trap of a pass: a self-check that fires twice, an unmapped or failing row, or one of its own. -/
def Lanes.trapAt (p : Lanes) (s : State) (t : Team) (w : Nat) (eff : W32) : Option TrapRec :=
  match s.checkFires t w with
  | some c => some (p.errorAt t c w eff)
  | none => (t.readable p.reads w).or (p.extra t w eff)

/-- Note a committed pass, and the rows of `regs` that it overwrote as they stood before the instruction (R127, R151). -/
def Team.notePass (before t : Team) (regs : List Nat) (w : Nat) (eff : W32) : Team :=
  { t.acts with prog := { t.prog with
      words := t.prog.words ++ [(w, eff)]
      old := t.prog.old ++ regs.map fun r => (rowKey r w, before.row r w) } }

/-- A row as it stood before the instruction that has made the passes noted (R127). -/
def Team.rowBefore (t : Team) (r w : Nat) : Option Row :=
  match t.prog.old.find? fun e => e.1 == rowKey r w with
  | some e => e.2
  | none => t.row r w

/-- The element that lane `b` of word `w` held in a register, or in a pair, before the instruction. -/
def Team.elemBefore (t : Team) (wide : Bool) (r w b : Nat) : Nat :=
  let word (r : Nat) : Nat := (((t.rowBefore r w).getD (Vector.replicate 32 0)).getD b 0).toNat
  if wide then word r + 2 ^ 32 * word (r + 1) else word r

/-- One issued pass that neither traps nor waits. -/
def Lanes.pass (p : Lanes) (t : Team) (w : Nat) (eff : W32) : Team × List Raised :=
  let (t', fl) := p.body t w eff
  let gone := p.gone.filter fun r => !p.dst.contains r
  (Team.notePass t (gone.foldl (fun t r => t.dropRow eff w r) t') p.dst w eff,
    (fl.filter (·.2 != 0)).map fun e => { w := w, lane := 32 * w + e.1, fl := e.2 })

/-- The rows, by key, that go after the pass of word `w`, if it is the last of the instruction. -/
def Lanes.lateRows (p : Lanes) (t : Team) (w : Nat) (rest : List (Nat × W32)) : List Nat :=
  if rest.isEmpty then p.late.flatMap fun r => (t.prog.words.map (·.1) ++ [w]).map (rowKey r) else []

/-- The passes in ascending order, each committed before the next; a pass that lacks a row, or the last one a retention line
for the rows that go after it, waits at its check (R187, R236). -/
def Lanes.run (p : Lanes) (s : State) : List (Nat × W32) → Team → List Raised → Team × List Raised × Ended
  | [], t, ev => (p.finish t, ev, .done)
  | (w, eff) :: rest, t, ev =>
    match p.trapAt s t w eff with
    | some r => (t, ev, .trap r)
    | none =>
      let gone := p.gone.filter fun r => !p.dst.contains r
      let late := p.lateRows t w rest
      if s.roomFor t p.dst gone w late then
        let (t', e) := p.pass (s.takeReserve t (t.newRows p.dst w)) w eff
        p.run s rest t' (ev ++ e)
      else (t, ev, .stall { dst := p.dst, gone := gone, w := w, late := late })

/-- The record of consumed poison (R407): site 0 load, 1 AMO, 2 engine, 3 register. -/
def State.poisonRecord (s : State) (die grid addr site : Nat) : State :=
  s.beacon (srcDie die) 0x32 2 [(16, grid), (24, addr), (32, site)]

/-- A pass of a register instruction traps: earlier passes and their flags are committed (R134, R198). -/
def State.passTrap (s : State) (k : Nat) (t : Team) (ev : List Raised) (r : TrapRec) : State :=
  let s := s.setTeam k { t.orFlags (raisedAll ev) with prog := { t.prog with ev := [] } }
  let s := if r.cause == 0x0E then { s with selfCheck := Tab.erase s.selfCheck t.core.toNat } else s
  let s := if r.cause == 0x11 then
      s.poisonRecord (t.core.toNat / 64) t.launch.number.toNat (r.info.toNat % 2 ^ 63) 3
    else s
  s.raise k r

/-- The team begins or resumes its instruction: only what the passes of this same instruction left is carried on. -/
def Team.begin (t : Team) : Team := if t.prog.pc == t.pc && t.pass != 0 then t else { t with prog := { pc := t.pc } }

/-- The team that the passes `words` act on: the reads of the fields `uses` are recorded where a first pass issues (R15,
R373). -/
def Team.entering (t : Team) (uses : List Nat) (words : List (Nat × W32)) : Team :=
  if words.isEmpty || !t.begin.prog.words.isEmpty then t.begin else t.begin.reading uses

/-- The flags of the passes are there for their verdicts (R184). -/
def Team.raising (t : Team) (ev : List Raised) : Team := { t with pipe := { t.pipe with flags := ev } }

/-- Run the passes `words` of a per-lane instruction that team `t` has fetched; `uses` are its scalar fields. What no pass
of it has committed leaves no trace. A pass that waits for a row stays where the instruction stands next (R38, R187). -/
def runLanes (s : State) (k : Nat) (t : Team) (p : Lanes) (uses : List Nat) (words : List (Nat × W32)) : Result :=
  let t0 := t.entering uses words
  let kept (u : Team) : Team := if u.prog.words.isEmpty then t else u
  match p.run s words t0 t0.prog.ev with
  | (t', ev, .done) => s.complete k (t'.raising ev) ev
  | (t', ev, .trap r) => .next (s.passTrap k { (kept t').raising ev with pass := r.pass } ev r)
  | (t', ev, .stall r) =>
    let u := kept t'
    let prog := if u.prog.words.isEmpty then u.prog else { u.prog with ev := ev }
    .next (s.setTeam k { u.raising ev with
      pass := r.w, prog := prog, rowWait := some r, inside := t.inside || words.any fun e => decide (e.1 < r.w) })

/-- What an instruction's decode-order checks look at (R64, R129). -/
structure Checks where
  /-- whether ET is consulted -/
  et : Bool := true
  /-- whether it rounds under RM -/
  rm : Team → Bool := fun _ => false
  /-- vector fields that must be even when elements are pairs (check 6) -/
  fields : List Nat := []
  /-- whether elements are pairs -/
  wide : Team → Bool := fun t => t.et == some .i64 || t.et == some .n64
  /-- a block that runs beyond its file (check 10) -/
  block : Team → Bool := fun _ => false
  /-- a type that the instruction does not take (check 11) -/
  typed : Team → Bool := fun _ => false

/-- Whether the element type in force is a float type. -/
def Team.isFloat (t : Team) : Bool := t.ctx.et.fmt.isSome

/-- The first failing check among 6, 9, 10 and 11 (R64). -/
def Checks.fail (c : Checks) (t : Team) : Option Nat :=
  if c.et && c.wide t && c.fields.any (· % 2 == 1) then some 6
  else if t.guardBeyond || (c.et && t.et.isNone) || (c.rm t && t.rm.isNone) then some 9
  else if c.block t then some 10
  else if c.typed t then some 11
  else none

/-- Issue a per-lane instruction: scoreboard over its scalar fields and the guard block, the checks, the passes. -/
def issueLanes (i : Instr) (s : State) (uses : Team → List Nat) (c : Checks) (p : Team → Lanes)
    (words : Team → List (Nat × W32) := Team.issued) : Result :=
  issue s (fun t => uses t ++ t.guardRegs) fun k t =>
    match c.fail t with
    | some reason => .next (s.raise k (t.illegal (wordOf i) reason))
    | none => runLanes s k t (p t) (uses t ++ t.guardRegs) (words t)

/-- Registers that a last-read flag releases (R34, R51): none under SV 00. -/
def lastRead (sv : BitVec 2) (flag wide : Bool) (r : Nat) : List Nat :=
  if sv != 0 && flag then pairOf wide r else []

/-- N of R52: AHD counts instructions, or pairs of them, or reads as 0 (R49). -/
def lookahead (sv : BitVec 2) (h : BitVec 4) : Nat :=
  if sv == 1 then h.toNat else if sv == 2 then 2 * h.toNat else 0

/-- Rounding applies when the element type is a float type (R129). -/
def roundsFloat (t : Team) : Bool := t.isFloat

/-- Lane `b` of a source, or 0 where the instruction has none. -/
def Team.source (t : Team) (wide : Bool) (r : Option Nat) (w b : Nat) : Nat :=
  match r with
  | none => 0
  | some r => t.elem wide r w b

/-- The lane instruction that reads elements a, b, d and writes fn(lane, a, b, d) to `dst`. -/
def laneOp (srcWide dstWide : Bool) (a b d : Option Nat) (dst : Nat) (gone : List Nat)
    (fn : Nat → Nat → Nat → Nat → Nat × Flags) : Lanes where
  reads := [a, b, d].flatMap fun r => match r with
    | none => []
    | some r => pairOf srcWide r
  dst := pairOf dstWide dst
  gone := gone
  body t w eff :=
    let val (x : Nat) : Nat × Flags :=
      fn (32 * w + x) (t.source srcWide a w x) (t.source srcWide b w x) (t.source srcWide d w x)
    (t.putElems dstWide dst w eff fun x => (val x).1, (activeBits eff).map fun x => (x, (val x).2))

/-! ### The formats -/

/-- V3: d := fn(a, b), or fn(a, b, d) where D is read too. -/
def vec3 (i : Instr) (f : V3) (s : State) (c : Checks) (readD : Bool) (fn : Ctx → Nat → Nat → Nat → Nat → Nat × Flags) :
    Result :=
  issueLanes i s (fun _ => []) { c with fields := [f.d.toNat, f.a.toNat, f.b.toNat] } fun t =>
    let wide := c.et && t.ctx.et.wide
    laneOp wide wide (some f.a.toNat) (some f.b.toNat) (if readD then some f.d.toNat else none) f.d.toNat
      (lastRead f.sv f.l wide f.a.toNat ++ lastRead f.sv f.m wide f.b.toNat) (fn t.ctx)

/-- One vector source. -/
def vec1 (i : Instr) (sv : BitVec 2) (d a : BitVec 7) (l : Bool) (s : State) (c : Checks)
    (fn : Ctx → Nat → Nat → Nat × Flags) : Result :=
  issueLanes i s (fun _ => []) { c with fields := [d.toNat, a.toNat] } fun t =>
    let wide := c.et && t.ctx.et.wide
    laneOp wide wide (some a.toNat) none none d.toNat (lastRead sv l wide a.toNat) fun n x _ _ => fn t.ctx n x

/-- No vector source: every active lane gets a value. -/
def vec0 (i : Instr) (d : BitVec 7) (uses : List Nat) (s : State) (c : Checks) (fn : Team → Nat → Nat) : Result :=
  issueLanes i s (fun _ => uses) { c with fields := [d.toNat] } fun t =>
    let wide := c.et && t.ctx.et.wide
    laneOp wide wide none none none d.toNat [] fun n _ _ _ => (fn t n, 0)

end Sys2Proof.Machine
end

