-- ==== Sys2Proof/Machine/MemOps.lean ====
section
/-! DEFINITION. A team's accesses (spec/06 R155 to R167, spec/08 R188, R191, R196, spec/10 R237, R238, spec/17 R363):
how each line of an access stands, the traps of R160, loads at their check, stores into the checked store queue or the
private buffer, transactional accesses lane by lane. -/

namespace Sys2Proof.Machine

/-- A page as a cached line records it. -/
def Line.page (l : Line) (va : Nat) : Page :=
  { va := va % 2 ^ 48 / 128 * 128, log2 := 7, pa := l.pa, r := l.r, w := l.w, x := l.x, u := l.u, c := l.c }

/-- How the line of an access stands at its check. -/
inductive LineStat where
  /-- may be performed at this location, under this translation -/
  | ok (loc : Loc) (page : Option Page)
  | trap (cause : BitVec 8)
  /-- a last-level miss: a walk is wanted (R196) -/
  | walk (w : Walk)
  /-- a checker-cache miss: a fill from L2 is wanted (R191) -/
  | fill (key : Nat)
  /-- held by the withdrawal of a window (R313) -/
  | held
  deriving DecidableEq, Repr

/-- The standing of a global access of a team (R157, R160, R163, R188, R191): EA[63:48] and refusals are protection, a
verdict is fatal, a peer's line takes a store under its translation alone. -/
def State.lineStat (s : State) (k : Nat) (t : Team) (need : Need) (ea : W64) : LineStat :=
  if ea.toNat / 2 ^ 48 != 0 then .trap 0x05
  else
    let va := ea.toNat
    let tag := tagOf (t.asid.setWidth 16) va
    let user := !t.sys
    match s.findWindow tag va with
    | some (g, w) =>
      if w.stat == .closing then .held
      else
        let loc := Loc.pool g w.group (w.off + (va - w.base))
        match Tab.find w.home ((va - w.base) / 128) with
        | none => .ok loc none
        | some l => if grants l.r l.w l.x l.u need user then .ok loc none else .trap 0x05
    | none =>
      match Tab.find s.lines (lineKey tag va) with
      | some l =>
        if !grants l.r l.w l.x l.u need user then .trap 0x05
        else if need == .load && !((s.core t.core.toNat).ckc.contains (lineKey tag va)) then .fill (lineKey tag va)
        else .ok (.virt tag va) (some (l.page va))
      | none =>
        if s.isFatal k tag va need then .trap 0x04
        else
          match s.translate (vaultTlb tag va) tag va need user false with
          | (.protect, _) => .trap 0x05
          | (.page p, none) =>
            if need == .store && p.pa / 2 ^ 52 != s.fabric.fmod.toNat then .ok (.virt tag va) (some p)
            else .walk (t.walkFor k tag va need)
          | _ => .walk (t.walkFor k tag va need)

/-- The standing of a local access of a team to `width` bytes (R158, R313). -/
def State.localStat (s : State) (t : Team) (width : Nat) (off : W64) : LineStat :=
  if t.launch.scratch < off.toNat + width then .trap 0x10
  else
    let closing : Bool := match s.gang t.gangKey with
      | none => false
      | some g => g.windows.any fun w =>
          w.stat == .closing && w.group == t.group && decide (w.off ≤ off.toNat) && decide (off.toNat < w.off + w.len)
    if closing then .held else .ok (.pool t.gangKey t.group off.toNat) none

/-- One lane's access. -/
structure LaneAcc where
  lane : Nat
  ea : W64
  deriving DecidableEq, Repr

/-- An AMO of the team to the doubleword of a location is not yet performed: a later access there waits (R162). -/
def State.amoAhead (s : State) (k : Nat) (l : Loc) : Bool :=
  s.amos.any fun a => a.team == k &&
    (let d := s.locOf a.tag a.ea; d.line == l.line && d.inLine / 8 == l.inLine / 8)

/-- The standing of a lane's access in the order of R160: misaligned, bound, protection, fatal. -/
def State.accStat (s : State) (k : Nat) (t : Team) (loc : Bool) (need : Need) (width : Nat) (ea : W64) : LineStat :=
  if ea.toNat % width != 0 then .trap 0x03
  else
    match if loc then s.localStat t width ea else s.lineStat k t need ea with
    | .ok l p => if s.amoAhead k l then .held else .ok l p
    | r => r

/-- Whether every byte of a location's granule comes of one queue entry of the core, the team's own where `own` is set, or
of the team's buffer. -/
def State.coveredByStore (s : State) (t : Team) (l : Loc) (own : Bool := false) : Bool :=
  let g := l.inLine / 32
  ((s.core t.core.toNat).queue.any fun e =>
      e.loc == l.line && coversGranule e.bytes g && (!own || e.team == t.key)) ||
    (t.buf.any fun e => e.loc == l.line && coversGranule e.bytes g)

/-- The checker cache of a core holds a line that reached it poisoned (R435). -/
def CoreRegs.holdsBad (c : CoreRegs) : Loc → Bool
  | .virt tag va => c.ckc.contains (lineKey tag va) && c.ckcBad.contains (lineKey tag va)
  | .pool .. => false

/-- A load of a window line is a transaction with its owner's die whose CRC check fails twice: what waits for the next one says
so (R435). -/
def State.windowBad (s : State) (t : Team) : Loc → Bool
  | .virt .. => false
  | .pool g grp off => (s.globalOf (.pool g grp off)).any fun a => (s.takeCrc (t.core.toNat / 64) a.1 a.2).1 == .failed

/-- Whether a load meets poison at a location (R402, R435). -/
def State.loadPoison (s : State) (t : Team) (l : Loc) : Bool :=
  (s.poisonLoc l || (s.core t.core.toNat).holdsBad l || s.windowBad t l) && !s.coveredByStore t l

/-- The CRC check of a load of a window line between dies is counted, unless the queue or the buffer supplies it (R435): lines of
L2 have passed theirs on their way into the checker cache. -/
def State.crossLoad (s : State) (t : Team) (l : Loc) : State :=
  match l with
  | .virt .. => s
  | .pool .. =>
    if s.coveredByStore t l then s
    else (s.globalOf l).elim s fun a => (s.crossing (t.core.toNat / 64) a.1 a.2).2

def State.crossLoads (s : State) (t : Team) (ls : List Loc) : State := ls.foldl (fun s l => s.crossLoad t l) s

/-- A load that takes poisoned data has passed its check all the same. -/
def State.crossTrap (s : State) (t : Team) (cause : BitVec 8) (ea : W64) : State :=
  if cause == 0x11 then s.crossLoad t (s.locOf (tagOf (t.asid.setWidth 16) ea.toNat) ea.toNat) else s

/-- What the lanes of a pass come to before it is performed: locations, or the lowest trapping lane, or a wait with the
walks and fills it wants. -/
inductive PassStat where
  | ready (locs : List (Nat × Loc × Option Page))
  | trap (lane : Nat) (cause : BitVec 8) (ea : W64)
  | wait (walks : List Walk) (fills : List Nat)
  deriving DecidableEq, Repr

/-- Take the lanes in ascending order (R160): the lowest lane with a trap decides, unless a lower one must wait. -/
def State.passStat (s : State) (k : Nat) (t : Team) (loc : Bool) (need : Need) (width : Nat) : List LaneAcc → PassStat
  | [] => .ready []
  | a :: rest =>
    match s.accStat k t loc need width a.ea with
    | .trap c => .trap a.lane c a.ea
    | .ok l p =>
      if need == .load && s.loadPoison t l then .trap a.lane 0x11 a.ea
      else
        match s.passStat k t loc need width rest with
        | .ready ls => .ready ((a.lane, l, p) :: ls)
        | r => r
    | .walk w =>
      match s.passStat k t loc need width rest with
      | .wait ws fs => .wait (w :: ws) fs
      | _ => .wait [w] []
    | .fill f =>
      match s.passStat k t loc need width rest with
      | .wait ws fs => .wait ws (f :: fs)
      | _ => .wait [] [f]
    | .held =>
      match s.passStat k t loc need width rest with
      | .wait ws fs => .wait ws fs
      | _ => .wait [] []

/-- A waiting access asks for its walks and fills. -/
def State.askAll (s : State) (t : Team) (walks : List Walk) (fills : List Nat) : State :=
  let s := walks.foldl State.askWalk s
  if fills.isEmpty then s
  else s.modCore t.core.toNat fun c => { c with fills := fills.foldl (fun l f => if l.contains f then l else l ++ [f]) c.fills }

/-! ### DET (R363, R371, R373) -/

/-- A byte of memory was last written by an agent outside the team's grid since the grid started (R373). -/
def State.outsideNow (s : State) (t : Team) (l : Loc) : Bool := ((s.grid t.seq).map (·.outside.contains l)).getD false

/-- A load of a team in a DET grid returns a byte last written outside the grid (R373, code 5): from memory, or from the
queued store of another grid's team. -/
def State.readsOutside (s : State) (t : Team) (l : Loc) (n : Nat) : Bool :=
  t.launch.det && (List.range n).any fun i =>
    (t.buffered (l.add i)).isNone &&
      (match s.supplierOf t (l.add i) with
        | some e => seqOfKey e.team != t.seq
        | none => s.outsideNow t (l.add i))

/-! ### Transactional lanes (R237, R238, R242) -/

/-- An access of a participating live lane is transactional. -/
def Team.txLane (t : Team) (lane : Nat) : Bool := t.txstat.active && t.tx.live.getLsbD lane
/-- A participating lane that has failed: its stores are discarded. -/
def Team.txFailed (t : Team) (lane : Nat) : Bool := t.txstat.active && t.tx.parts.getLsbD lane && !t.tx.live.getLsbD lane

/-- The reasons of TXSTAT in bit order (R241). -/
def reasonCONFLICT : BitVec 5 := 1
def reasonINTRA : BitVec 5 := 2
def reasonCAPACITY : BitVec 5 := 4
def reasonREMOTE : BitVec 5 := 8
def reasonUSER : BitVec 5 := 16

/-- A lane fails (R238). -/
def Team.failLane (t : Team) (lane : Nat) (why : BitVec 5) : Team :=
  { t with
    tx := { t.tx with live := t.tx.live &&& ~~~(1#1024 <<< lane) }
    txstat := { t.txstat with reasons := t.txstat.reasons ||| why } }

/-- The distinct read lines of a lane, as line keys. -/
def Tx.readLines (x : Tx) (lane : Nat) : List Nat :=
  (x.reads.filter (·.lane == lane)).foldl (fun l r => insertNat (lineKey r.tag r.va) l) []
/-- The distinct write lines of a lane. -/
def Tx.writeLines (x : Tx) (lane : Nat) : List Nat :=
  (x.writes.filter (·.lane == lane)).foldl (fun l r => insertNat (lineKey r.tag r.va) l) []
/-- The union of the lines of live lanes. -/
def Tx.allLines (x : Tx) : List Nat :=
  let l := (x.reads.filter (x.live.getLsbD ·.lane)).foldl (fun l r => insertNat (lineKey r.tag r.va) l) []
  (x.writes.filter (x.live.getLsbD ·.lane)).foldl (fun l r => insertNat (lineKey r.tag r.va) l) l

/-- An access of lane `lane` to a byte overlaps one of a lower live lane, one of the two being a store (R238). -/
def Tx.overlaps (x : Tx) (lane : Nat) (tag : BitVec 16) (va : Nat) (store : Bool) : Bool :=
  (x.writes.any fun w => w.lane < lane && x.live.getLsbD w.lane && w.tag == tag && w.va == va) ||
    (store && x.reads.any fun r => r.lane < lane && x.live.getLsbD r.lane && r.tag == tag && r.va == va)

/-- The core that hosts a gang's group. -/
def State.hostCore (s : State) (g grp : Nat) : Option Nat :=
  (s.gang g).bind fun gg => (Tab.find gg.coreOf grp).map (4 * gg.cluster.toNat + ·)

/-- The lines of an access of `n` bytes, as keys; an address beyond 48 bits has lines of its own. -/
def accessKeys (tag : BitVec 16) (va n : Nat) : List Nat :=
  let key (a : Nat) : Nat := if a < 2 ^ 48 then lineKey tag a else 2 ^ 57 + a / 128
  [key va, key (va + (n - 1))].eraseDups

/-- The reasons for which a transactional access fails at once (R238); access to a window is remote from another core. -/
def State.txReasons (s : State) (t : Team) (lane : Nat) (tag : BitVec 16) (va n : Nat) (store : Bool) (loc : Loc)
    (page : Option Page) : BitVec 5 :=
  let with_ (l : List Nat) : Nat := ((accessKeys tag va n).foldl (fun l k => insertNat k l) l).length
  let own := if store then t.tx.writeLines lane else t.tx.readLines lane
  let intra := (List.range n).any fun i => t.tx.overlaps lane tag (va + i) store
  let cap := (if store then 8 else 16) < with_ own || 256 < with_ t.tx.allLines
  let remote : Bool := match loc with
    | .pool g grp _ => s.hostCore g grp != some t.core.toNat
    | .virt .. => (page.map fun p => p.pa / 2 ^ 52 != s.fabric.fmod.toNat).getD false
  (if intra then reasonINTRA else 0) ||| (if cap then reasonCAPACITY else 0) ||| (if remote then reasonREMOTE else 0)

/-- The later-escalated holder loses the hold: its live lanes that read the line fail (R242). -/
def Team.loseHold (t : Team) (tag : BitVec 16) (line : Nat) : Team :=
  ((t.tx.reads.filter fun r => r.tag == tag && r.va / 128 == line && t.tx.live.getLsbD r.lane).map (·.lane)).foldl
    (fun t n => t.failLane n reasonCONFLICT) t

/-- An escalated team's load takes a hold on the line (R242): `none` where an earlier-escalated team holds it. -/
def State.takeHold (s : State) (k : Nat) (t : Team) (tag : BitVec 16) (va : Nat) : Option State :=
  let line := va % 2 ^ 48 / 128
  let order := t.escOrder.getD 0
  let mine : LineHold := { team := k, order := order, tag := tag, line := line }
  match s.holdOn tag va with
  | none => some { s with holds := s.holds ++ [mine] }
  | some h =>
    if h.team == k then some s
    else if h.order < order then none
    else
      let s := s.modTeam h.team fun u => u.loseHold tag line
      some { s with holds := (s.holds.filter fun x => x != h) ++ [mine] }

/-- Where a transactional access goes and under which translation, whatever that grants, as far as the access itself need not be
made; no page where its walk faults or EA[63:48] is not 0. -/
def State.txPlace (s : State) (t : Team) (ea : W64) : Loc × Option Page :=
  let va := ea.toNat
  let tag := tagOf (t.asid.setWidth 16) va
  if va / 2 ^ 48 != 0 then (.virt tag va, none)
  else
    match s.locOf tag va, Tab.find s.lines (lineKey tag va) with
    | .pool g grp off, _ => (.pool g grp off, none)
    | .virt tag va, some l => (.virt tag va, some (l.page va))
    | .virt tag va, none => (.virt tag va, s.pageAt (vaultTlb tag va) tag va)

/-- An escalated team's loads take holds; under DET none does (R242, R368). -/
def Team.holds (t : Team) : Bool := t.txstat.esc && !(t.launch.det && !t.sys)

/-- The reasons for which the transactional access of a lane at `ea` fails before it is made (R238, R242). As a lane that fails
makes no access, none of the checks of R160 is made of it, alignment and EA[63:48] neither (DEDUCED, log 112). -/
def State.txWhy (s : State) (t : Team) (lane : Nat) (ea : W64) (n : Nat) (store : Bool) : BitVec 5 :=
  let (loc, page) := s.txPlace t ea
  let tag := tagOf (t.asid.setWidth 16) ea.toNat
  let earlier : Bool := !store && t.holds && decide (ea.toNat < 2 ^ 48) && (match s.holdOn tag ea.toNat with
    | none => false
    | some h => h.team != t.key && h.order < t.escOrder.getD 0)
  s.txReasons t lane tag ea.toNat n store loc page ||| (if earlier then reasonCONFLICT else 0)

/-- The bytes of an access as claimed in the lane's sets. -/
def Team.txClaim (t : Team) (lane : Nat) (ea : W64) (n : Nat) (store : Bool) : Team :=
  let tag := tagOf (t.asid.setWidth 16) ea.toNat
  if store then
    { t with tx := { t.tx with writes := t.tx.writes ++ (List.range n).map fun i =>
        { lane := lane, tag := tag, va := ea.toNat + i, value := 0 } } }
  else
    { t with tx := { t.tx with reads := t.tx.reads ++ (List.range n).map fun i =>
        { lane := lane, tag := tag, va := ea.toNat + i, value := 0, own := false } } }

/-- The lanes of a pass that fail at their access, in ascending lane (R238): they make none. -/
def State.txFailing (s : State) (t : Team) (n : Nat) (store : Bool) : List LaneAcc → List Nat
  | [] => []
  | a :: rest =>
    if !t.txLane a.lane then s.txFailing t n store rest
    else
      let why := s.txWhy t a.lane a.ea n store
      if why == 0 then s.txFailing (t.txClaim a.lane a.ea n store) n store rest
      else a.lane :: s.txFailing (t.failLane a.lane why) n store rest

/-- An escalated load is performed at its home (R242) once no checked store queue has an entry for the line: stores that have
been checked are not behind a hold (DESIGN CHOICE, log 92). -/
def State.homeWaits (s : State) (t : Team) (l : Loc) : Bool :=
  t.holds && s.cores.any fun c => c.2.queue.any fun e => e.loc == l.line

/-- The free value that the register of a lane gets whose transactional load fails (log 18); under DET it depends on the
team, the clock and the lane alone (R372). -/
def State.failedValue (s : State) (t : Team) (lane n : Nat) : Nat :=
  let at_ :=
    if t.launch.det then ((t.gang * 16 + t.num) * 2 ^ 64 + t.retired.toNat) * 1024 + lane else s.freeIdx * 1024 + lane
  Config.choice at_ % 2 ^ (8 * n)

/-- The lane's own transactional store to a byte. -/
def Tx.ownStore (x : Tx) (lane : Nat) (tag : BitVec 16) (va : Nat) : Option Byte :=
  (x.writes.findRev? fun w => w.lane == lane && w.tag == tag && w.va == va).map (·.value)

/-- A transactional load of `n` bytes by a lane that does not fail (R237, R242, R368): the state with the lane's read set,
and the value: the lane's own stores first, then memory at home for an escalated team, memory as the last boundary left it
under DET, and what any load of the team would read otherwise. -/
def State.txLoad (s : State) (k lane : Nat) (ea : W64) (n : Nat) (loc : Loc) : State × Nat :=
  match s.team k with
  | none => (s, 0)
  | some t =>
    let va := ea.toNat
    let tag := tagOf (t.asid.setWidth 16) va
    let home := t.holds || (t.launch.det && !t.sys)
    let s := if t.holds then (s.takeHold k t tag va).getD s else s
    match s.team k with
    | none => (s, 0)
    | some t =>
      let byte (i : Nat) : TxRead :=
        match t.tx.ownStore lane tag (va + i) with
        | some b => { lane := lane, tag := tag, va := va + i, value := b, own := true }
        | none =>
          { lane := lane, tag := tag, va := va + i, own := false
            value := if home then s.readLoc (loc.add i) else s.teamByte t (loc.add i) }
      let rs := (List.range n).map byte
      let others := ((List.range n).filter fun i => (t.tx.ownStore lane tag (va + i)).isNone).map loc.add
      let out := t.launch.det && others.any fun l => s.outsideNow t l
      let s := s.noteLoads (some t.seq) others
      let s := if home then s else s.noteSeen k others 1
      (s.modTeam k fun t => { t with tx := { t.tx with reads := t.tx.reads ++ rs } }.detIf out 5, leNat (rs.map (·.value)))

/-- A transactional store of `n` bytes by a lane that does not fail (R237). -/
def State.txStore (s : State) (k lane : Nat) (ea : W64) (n v : Nat) : State :=
  s.modTeam k fun t =>
    let tag := tagOf (t.asid.setWidth 16) ea.toNat
    let ws := (List.range n).map fun i =>
      { lane := lane, tag := tag, va := ea.toNat + i, value := (leBytes n v).getD i 0 : TxWrite }
    { t with tx := { t.tx with writes := t.tx.writes ++ ws } }

/-- A lane fails at its transactional access, for every reason that applies (R238). -/
def State.txFail (s : State) (k : Nat) (a : LaneAcc) (n : Nat) (store : Bool) : State :=
  s.modTeam k fun t => t.failLane a.lane (s.txWhy t a.lane a.ea n store)

/-! ### Paths (R169) -/

/-- Whether an access lies in a window that the team's own gang has published (R169, R315). -/
def State.inOwnWindow (s : State) (t : Team) (ea : W64) : Bool :=
  if ea.toNat / 2 ^ 48 != 0 then false
  else
    match s.findWindow (tagOf (t.asid.setWidth 16) ea.toNat) ea.toNat with
    | some (g, _) => g == t.gangKey
    | none => false

/-- The path of a load or store: 2 for local accesses and for instructions whose issued passes all address windows of
the own gang, else `p` (R169). -/
def State.pathOf (s : State) (t : Team) (loc : Bool) (p : Fin 8) (eas : List W64) : Fin 8 :=
  if loc || (!eas.isEmpty && eas.all (s.inOwnWindow t ·)) then pathLDL else p

/-- Whether the team's stores go to its private buffer (R363). -/
def Team.buffers (t : Team) : Bool := t.launch.det && !t.sys

/-- The distinct 128-byte lines of a list of locations. -/
def distinctLines : List Loc → List Loc
  | [] => []
  | l :: t => let r := distinctLines t; if r.contains l.line then r else l.line :: r

/-- Whether an instruction's stores would take the private buffer above 2,048 lines (R361, R363). -/
def Team.overflows (t : Team) (locs : List Loc) : Bool := 2048 < (distinctLines (t.buf.map (·.loc) ++ locs)).length

/-! ### Stores into the queue (R188) -/

/-- Bytes of a store at a location: line and place in the line. -/
def storeBytes (l : Loc) (n v : Nat) : List (Nat × Byte) := (List.range n).map fun i => (l.inLine + i, (leBytes n v).getD i 0)

/-- The tag under which an entry of a window was checked, where it is not part of the entry's location (R197). -/
def windowTag (asid : BitVec 16) (ea : Nat) : Loc → Option (BitVec 16)
  | .virt .. => none
  | .pool .. => some (tagOf asid ea)

/-- Merge the stores of one pass into entries, one per line, in order (R188): a later lane's byte follows (R162). -/
def mergeStores (k path op : Nat) : List (Loc × Option Page × List (Nat × Byte)) → List QEntry → List QEntry
  | [], es => es
  | (l, p, bs) :: rest, es =>
    mergeStores k path op rest
      (if es.any fun e => e.loc == l then es.map fun e => if e.loc == l then { e with bytes := e.bytes ++ bs } else e
       else es ++ [{ team := k, path := path, op := op, loc := l, bytes := bs, page := p }])

/-- Free entries of a core's queue. -/
def CoreRegs.queueRoom (c : CoreRegs) (n : Nat) : Bool := c.queue.length + n ≤ 64

/-- Number entries in the order in which they enter the queue. -/
def numberFrom : Nat → List QEntry → List QEntry
  | _, [] => []
  | n, e :: t => { e with n := n } :: numberFrom (n + 1) t

/-- A line is homed on this module, as its cached copy says. -/
def State.homedHere (s : State) (key : Nat) : Bool := (Tab.find s.lines key).any fun l => l.pa / 2 ^ 52 == s.fabric.fmod.toNat

/-- A core holds the line of an entry writable in its cache region: that of an entry of a cached line homed here, for a peer's line
is cached as a read-only copy (R188, R446). -/
def State.obtainEntry (s : State) (core : Nat) (e : QEntry) (dirty : Bool) : State :=
  match e.loc with
  | .pool .. => s
  | .virt tag va => if s.homedHere (lineKey tag va) then s.obtainLine core (lineKey tag va) true dirty else s

/-- Enter checked stores of a team into its core's queue, behind what its acquires have ordered before them (R222); the core
holds their lines (R188). -/
def State.enqueue (s : State) (t : Team) (es : List QEntry) : State :=
  let s := es.foldl (fun s e => s.obtainEntry t.core.toNat e false) s
  s.modCore t.core.toNat fun c =>
    let es := es.map fun e => { e with after := c.standing t.acquired }
    { c with queue := c.queue ++ numberFrom c.entered es, entered := c.entered + es.length }

/-- Put stores into the team's private buffer (R363). -/
def Team.bufferStores (t : Team) (es : List QEntry) : Team :=
  { t with buf := t.buf ++ es }

/-- A system-mode store removes its bytes from the team's private buffer (R371). -/
def Team.unbuffer (t : Team) (es : List QEntry) : Team :=
  let kept (b : QEntry) : QEntry :=
    { b with bytes := b.bytes.filter fun x => !(es.any fun e => e.loc == b.loc && e.bytes.any fun y => y.1 == x.1) }
  { t with buf := (t.buf.map kept).filter fun b => !b.bytes.isEmpty }

/-- The stores of a pass take effect at their check: the private buffer under DET in user mode, else the queue. -/
def State.checkStores (s : State) (k : Nat) (t : Team) (es : List QEntry) : State :=
  if t.buffers then s.setTeam k (t.bufferStores es)
  else
    let t := if t.launch.det then (t.unbuffer es).detIf (!es.isEmpty) 6 else t
    (s.setTeam k t).enqueue t es

/-! ### The passes of a vector access -/

/-- A vector load or store. -/
structure VAccess where
  instr : Instr
  /-- data register -/
  d : Nat
  /-- offset register -/
  a : Nat
  /-- base -/
  base : Nat
  local_ : Bool
  store : Bool
  width : Nat
  deriving DecidableEq, Repr

/-- The effective address or offset of a lane (R157, R158). -/
def Team.laneEA (t : Team) (x : VAccess) (w b : Nat) : W64 :=
  t.sreg x.base + (BitVec.ofNat 32 (t.elem false x.a w b)).signExtend 64

/-- The accesses of a pass in ascending lane. -/
def Team.passAccs (t : Team) (x : VAccess) (w : Nat) (eff : W32) : List LaneAcc :=
  (activeBits eff).map fun b => { lane := 32 * w + b, ea := t.laneEA x w b }

/-- The registers that a pass reads and writes. -/
def VAccess.reads (x : VAccess) : List Nat := if x.store then x.a :: pairOf (x.width == 8) x.d else [x.a]
def VAccess.dst (x : VAccess) : List Nat := if x.store then [] else pairOf (x.width == 8) x.d

/-- The lanes of a pass load (R161, R237), in ascending lane; a lane without a location fails at its access (R238). -/
def State.loadLanes (s : State) (k : Nat) (x : VAccess) (locs : List (Nat × Loc × Option Page)) :
    List LaneAcc → List (Nat × Nat) × State
  | [] => ([], s)
  | a :: rest =>
    match s.team k with
    | none => ([], s)
    | some t =>
      let (s, v) : State × Nat :=
        match locs.find? (·.1 == a.lane) with
        | none => (s.txFail k a x.width false, s.failedValue t a.lane x.width)
        | some (_, loc, _) =>
          if !x.local_ && t.txLane a.lane then s.txLoad k a.lane a.ea x.width loc
          else
            (((s.noteLoads (some t.seq) [loc]).noteSeen k [loc] x.width).modTeam k fun u =>
              u.detIf (s.readsOutside t loc x.width) 5, s.teamRead t loc x.width)
      let (vs, s) := State.loadLanes s k x locs rest
      ((a.lane, v) :: vs, s)

/-- Commit the values of a load pass to its destination row (R33, R161). -/
def Team.putLoaded (t : Team) (x : VAccess) (w : Nat) (eff : W32) (vs : List (Nat × Nat)) : Team :=
  t.putElems (x.width == 8) x.d w eff fun b => ((vs.find? (·.1 == 32 * w + b)).map (·.2)).getD 0

/-- The store data of a lane. -/
def Team.storeData (t : Team) (x : VAccess) (lane : Nat) : Nat := t.elem (x.width == 8) x.d (lane / 32) (lane % 32)

/-- The ordinary stores of a pass: those of lanes that are neither transactional nor failed (R237, R238). -/
def Team.plainStores (t : Team) (x : VAccess) (locs : List (Nat × Loc × Option Page)) :
    List (Loc × Option Page × List (Nat × Byte)) :=
  (locs.filter fun e => x.local_ || !(t.txLane e.1 || t.txFailed e.1)).map fun e =>
    (e.2.1.line, e.2.2, storeBytes e.2.1 x.width (t.storeData x e.1))

/-- The transactional stores of a pass, in ascending lane; a lane without a location fails (R238). -/
def State.txStores (s : State) (k : Nat) (x : VAccess) (locs : List (Nat × Loc × Option Page)) : List LaneAcc → State
  | [] => s
  | a :: rest =>
    match s.team k with
    | none => s
    | some t =>
      let s :=
        if !t.txLane a.lane then s
        else if (locs.find? (·.1 == a.lane)).isNone then s.txFail k a x.width true
        else s.txStore k a.lane a.ea x.width (t.storeData x a.lane)
      State.txStores s k x locs rest

/-- What one pass of a vector access comes to. -/
inductive AccOut where
  | next (s : State)
  | trap (s : State) (r : TrapRec)
  | wait (s : State)
  deriving DecidableEq, Repr

/-- The stores of a pass whose lanes stand at `locs` (R188, R237): it waits for the queue entries it needs, and for the holds of
other teams on its lines (R242; log 92). -/
def State.storePass (s : State) (k : Nat) (t : Team) (x : VAccess) (path op : Nat) (accs : List LaneAcc)
    (locs : List (Nat × Loc × Option Page)) : AccOut :=
  let ea (l : Loc) : Nat := ((locs.find? fun e => e.2.1.line == l).bind fun e => accs.find? (·.lane == e.1)).elim 0 (·.ea.toNat)
  let es := (mergeStores k path op (t.plainStores x locs) []).map fun e =>
    { e with tag := if x.local_ then none else windowTag (t.asid.setWidth 16) (ea e.loc) e.loc }
  if !t.buffers && (!(s.core t.core.toNat).queueRoom es.length || es.any fun e => s.heldFrom k e.loc) then .wait s
  else
    let s := if x.local_ then s else s.txStores k x locs accs
    match s.team k with
    | none => .wait s
    | some t => .next (s.checkStores k t es)

/-- The loads of a pass whose lanes stand at `locs` (R161, R191): it waits for the rows it needs (R187). -/
def State.loadPass (s : State) (k : Nat) (t : Team) (x : VAccess) (w : Nat) (eff : W32) (accs : List LaneAcc)
    (locs : List (Nat × Loc × Option Page)) : AccOut :=
  if !s.roomFor t x.dst [] w then .wait (s.modTeam k fun t => { t with rowWait := some { dst := x.dst, gone := [], w := w } })
  else
    let (vs, s') := (s.crossLoads t (locs.map (·.2.1))).loadLanes k x locs accs
    match s'.team k with
    | none => .wait s
    | some u =>
      let u := s.takeReserve u (t.newRows x.dst w)
      .next (s'.setTeam k { u.putLoaded x w eff vs with rowWait := none })

/-- One pass of a vector access (R160, R161, R188, R191), the operation named `op` on path `path`. -/
def State.accessPass (s : State) (k : Nat) (x : VAccess) (path op w : Nat) (eff : W32) : AccOut :=
  match s.team k with
  | none => .wait s
  | some t =>
    match s.checkFires t w with
    | some c =>
      .trap { s with selfCheck := Tab.erase s.selfCheck t.core.toNat }
        { t.at 0x0E (c.info (c.memUnit !x.store)) with pass := w, lane := firstLane w eff }
    | none =>
      match t.readable x.reads w with
      | some r => .trap s r
      | none =>
        let accs := t.passAccs x w eff
        let failing := if x.local_ then [] else s.txFailing t x.width x.store accs
        match s.passStat k t x.local_ (if x.store then .store else .load) x.width
            (accs.filter fun a => !failing.contains a.lane) with
        | .trap lane c ea => .trap (if x.local_ then s else s.crossTrap t c ea) { t.at c ea with pass := w, lane := lane }
        | .wait ws fs => .wait (s.askAll t ws fs)
        | .ready locs =>
          if x.store then s.storePass k t x path op accs locs
          else if locs.any fun e => t.txLane e.1 && s.homeWaits t e.2.1 then .wait s
          else s.loadPass k t x w eff accs locs

/-- The passes from the resume pass on; a pass that waits is where the instruction stands next (R196, R198). -/
def State.accessPasses (s : State) (k : Nat) (x : VAccess) (path op : Nat) : List (Nat × W32) → AccOut
  | [] => .next s
  | (w, eff) :: rest =>
    match s.accessPass k x path op w eff with
    | .next s => State.accessPasses (s.modTeam k fun t => { t.acts with pass := w + 1, inside := true }) k x path op rest
    | .wait s => .wait (s.modTeam k fun t => { t with pass := w })
    | .trap s r => .trap s r

/-- A trap of a memory pass (R160, R198): the verdicts are spent, poison is recorded. -/
def State.accessTrap (s : State) (k : Nat) (t : Team) (r : TrapRec) : State :=
  let s := if r.cause == 0x04 then s.spendFatal k else s
  let s := if r.cause == 0x11 then
      let reg := r.info.getLsbD 63
      let s := if reg then s else s.modTeam k fun t => t.detIf true 8
      s.poisonRecord (t.core.toNat / 64) t.launch.number.toNat (r.info.toNat % 2 ^ 63) (if reg then 3 else 0)
    else s
  (s.modTeam k fun t => { t with pass := r.pass }).raise k r

/-- Retire a memory instruction: its operation issues no more (R169). -/
def State.retireAccess (s : State) (k : Nat) : Result :=
  .next ((s.modTeam k Team.retire).closeOp k)

/-- Whether an instruction that raises a path may issue: a counter at 255 stalls it (R170). -/
def Team.pathRoom (t : Team) (p : Fin 8) : Bool := t.counter p < 255

/-- Name the instruction's operation and raise its path, unless it has been raised at an earlier pass. -/
def State.openAccess (s : State) (k : Nat) (t : Team) (p : Fin 8) : State × Nat :=
  match t.openOp with
  | some op => (s, op)
  | none => (s.setTeam k { t.startOp p with openOp := some t.opSeq }, t.opSeq)

/-- All locations that an instruction's remaining passes store to, where they are known (R361). -/
def State.storeLocs (s : State) (t : Team) (x : VAccess) (words : List (Nat × W32)) : List Loc :=
  words.flatMap fun e => (t.passAccs x e.1 e.2).filterMap fun a =>
    if x.local_ then some (.pool t.gangKey t.group a.ea.toNat)
    else if t.txLane a.lane || t.txFailed a.lane then none
    else some (s.locOf (tagOf (t.asid.setWidth 16) a.ea.toNat) a.ea.toNat)

/-- A vector load or store (R155 to R161, R169). -/
def vectorAccess (x : VAccess) (s : State) : Result :=
  issue s (fun t => x.base :: t.guardRegs) fun k t =>
    if t.guardBeyond then .next (s.raise k (t.illegal (wordOf x.instr) 9))
    else
      let words := t.issued
      if words.isEmpty then (s.setTeam k t).retireAccess k
      else
        let path := s.pathOf t x.local_ (if x.store then pathSTG else pathLDG)
          (words.flatMap fun e => (t.passAccs x e.1 e.2).map (·.ea))
        if t.openOp.isNone && !t.pathRoom path then .next s
        else if x.store && t.buffers && t.openOp.isNone && t.overflows (s.storeLocs t x words) then
          .next (s.modTeam k fun t => { t with park := some .buffer })
        else
          let (s', op) := s.openAccess k t path
          match s'.accessPasses k x path op words with
          | .next s => s.retireAccess k
          | .wait s => .next s
          | .trap s r => .next (s.accessTrap k t r)

end Sys2Proof.Machine
end

