-- ==== Sys2Proof/Machine/MemScalar.lean ====
section
/-! DEFINITION. Scalar loads and stores and cache control (spec/06 R164 to R166, spec/09 R224, R227). -/

namespace Sys2Proof.Machine

/-- The effective address of a scalar access (R157). -/
def Team.scalarEA (t : Team) (base : BitVec 6) (a : BitVec 7) : W64 := t.sreg base.toNat + t.src a

/-- The record of a scalar access that traps (R160). -/
def Team.scalarTrap (t : Team) (cause : BitVec 8) (ea : W64) : TrapRec := { t.at cause ea with waitOnly := t.waitOnly }

/-- A release at CLUSTER scope or wider (R227): the core's checked store queue is empty, nothing of the team is on its
way outside the core, and its AMOs are performed. Under DET it waits for nothing in user mode (R367). -/
def State.released (s : State) (k : Nat) (t : Team) : Bool :=
  t.buffers || ((s.core t.core.toNat).queue.isEmpty && !(s.amos.any fun a => a.team == k))

/-- The team's earlier stores and AMOs to a line have been performed (R162). What its private buffer holds under DET is not waited
for: it is performed at the boundary alone (R363; DESIGN CHOICE, log 117). -/
def State.lineDrained (s : State) (k : Nat) (t : Team) (line : Loc) : Bool :=
  !((s.core t.core.toNat).queue.any fun e => e.team == k && e.loc == line) &&
    !(s.amos.any fun a => a.team == k && (s.locOf a.tag a.ea).line == line)

/-- Issue a scalar access, whose pass has a self-check of its address or of its load comparison (R193, R194). -/
def issueAccess (s : State) (load : Bool) (uses : List Nat) (f : Nat → Team → Result) : Result :=
  issueChecked s (fun _ => uses) (fun _ => none) f fun c => c.memUnit load

/-- SLD and SLDACQ (R164, R165): performed at the check; an acquire waits for nothing (R227), and orders the store that it
read before the team's later stores (R224). -/
def scalarLoad (f : MS) (s : State) (acq : Bool) : Result :=
  issueAccess s true [f.d.toNat, f.a.toNat, f.s.toNat] fun k t =>
    let ea := t.scalarEA f.s f.a
    let path := s.pathOf t false pathLDG [ea]
    if t.openOp.isNone && !t.pathRoom path then .next s
    else
      let (s, _) := s.openAccess k t path
      match s.passStat k t false .load 8 [{ lane := 0, ea := ea }] with
      | .trap _ c ea => .next ((s.crossTrap t c ea).accessTrap k t (t.scalarTrap c ea))
      | .wait ws fs => .next (s.askAll t (ws.map fun w => { w with scalar := true }) fs)
      | .ready locs =>
        let loc := (locs.head?.map (·.2.1)).getD (.virt 0 0)
        let out := s.readsOutside t loc 8
        let v := s.teamRead t loc 8
        ((((s.crossLoad t loc).noteLoads (some t.seq) [loc]).noteSeen k [loc] 8 acq).modTeam k fun t =>
          (t.detIf out 5).setS f.d.toNat (BitVec.ofNat 64 v)).retireAccess k

def execSld (f : MS) (s : State) : Result := scalarLoad f s false
def execSldacq (f : MS) (s : State) : Result := scalarLoad f s true

/-- SST and SSTREL (R164, R165): SSTREL waits as a release fence first (R227). -/
def scalarStore (f : MS) (s : State) (release : Bool) : Result :=
  issueAccess s false [f.d.toNat, f.a.toNat, f.s.toNat] fun k t =>
    let ea := t.scalarEA f.s f.a
    let path := s.pathOf t false pathSTG [ea]
    if t.openOp.isNone && !t.pathRoom path then .next s
    else if release && !s.released k t then .next s
    else
      let before := s
      let (s, op) := s.openAccess k t path
      match s.passStat k t false .store 8 [{ lane := 0, ea := ea }] with
      | .trap _ c ea => .next (s.accessTrap k t (t.scalarTrap c ea))
      | .wait ws fs => .next (s.askAll t ws fs)
      | .ready locs =>
        let (loc, page) := (locs.head?.map (·.2)).getD (.virt 0 0, none)
        if t.buffers && t.overflows [loc] then .next (before.modTeam k fun t => { t with park := some .buffer })
        else if !t.buffers && (!(s.core t.core.toNat).queueRoom 1 || s.heldFrom k loc) then .next s
        else
          let e : QEntry :=
            { team := k, path := path.val, op := op, loc := loc.line
              bytes := storeBytes loc 8 (t.sreg f.d.toNat).toNat, page := page, scalar := true
              tag := windowTag (t.asid.setWidth 16) ea.toNat loc }
          match s.team k with
          | none => .next s
          | some t => (s.checkStores k t [e]).retireAccess k

def execSst (f : MS) (s : State) : Result := scalarStore f s false
def execSstrel (f : MS) (s : State) : Result := scalarStore f s true

/-! ### Cache control (R166) -/

/-- CPREF and CPREFL2: the line is requested, into the core's cache region or into L2; a request that would fault is dropped
(R166). -/
def prefetch (f : CA) (s : State) (l2 : Bool) : Result :=
  issueScalar s (fun _ => [f.a.toNat, f.s.toNat]) fun k t =>
    let ea := t.scalarEA f.s f.a
    let tag := tagOf (t.asid.setWidth 16) ea.toNat
    let s := s.setTeam k t.retire
    if ea.toNat / 2 ^ 48 != 0 || (s.findWindow tag ea.toNat).isSome then .next s
    else
      match s.translate (vaultTlb tag ea.toNat) tag ea.toNat .load (!t.sys) false with
      | (.page p, kept) =>
        let key := lineKey tag ea.toNat
        let s := (s.keepTlb (vaultTlb tag ea.toNat) tag kept).requestLine tag ea.toNat p 2 (some k) (some t.seq)
        .next (if l2 || (Tab.find s.lines key).isNone then s else s.obtainLine t.core.toNat key false false)
      | _ => .next s

def execCpref (f : CA) (s : State) : Result := prefetch f s false
def execCprefl2 (f : CA) (s : State) : Result := prefetch f s true

/-- Write a window line back to its home memory; the window keeps it (R166, R310). -/
def State.flushWindowLine (s : State) (g : Nat) (w : Window) (va : Nat) : State :=
  let n := (va % 2 ^ 48 - w.base) / 128
  match Tab.find w.home n with
  | none => s
  | some l =>
    let p := s.poolAt g w.group
    let off := w.off + 128 * n
    let bit (i : Nat) : BitVec 4 := if p.poison.contains (off / 32 + i) then 1#4 <<< i else 0
    s.lineToPhys p.mem off (l.pa % 2 ^ 52) (bit 0 ||| bit 1 ||| bit 2 ||| bit 3) l.c

/-- CFLUSH and CINV of the line of an address: dirty data goes home; CINV removes every copy (R166). Of a line homed on a peer it
removes the copies that this module holds: R449 has no traffic that would remove others (DESIGN CHOICE, log 116). -/
def State.flushAt (s : State) (tag : BitVec 16) (va : Nat) (inv : Bool) : State :=
  match s.findWindow tag va with
  | some (g, w) => s.flushWindowLine g w va
  | none => if inv then s.evictLine (lineKey tag va) else s.writeBack (lineKey tag va)

/-- CFLUSH and CINV (R166): the team's earlier stores and AMOs to the line come first (R162); CINV completes once peers have
given up their copies, too (R447). -/
def cacheWrite (i : Instr) (f : CA) (s : State) (inv : Bool) : Result :=
  issueAccess s false [f.a.toNat, f.s.toNat] fun k t =>
    if t.txstat.active then .next (s.raise k (t.misuse (wordOf i)))
    else
      let ea := t.scalarEA f.s f.a
      let tag := tagOf (t.asid.setWidth 16) ea.toNat
      let path := s.pathOf t false pathSTG [ea]
      if t.openOp.isNone && !t.pathRoom path then .next s
      else
        let (s, _) := s.openAccess k t path
        let go (s : State) : Result :=
          if s.lineDrained k t (s.locOf tag ea.toNat).line && !(inv && !(s.planesOf tag ea.toNat).isEmpty) then
            (s.flushAt tag ea.toNat inv).retireAccess k
          else .next (if inv then s.invalidate tag ea.toNat else s)
        match s.lineStat k t .load ea with
        | .trap c => .next (s.accessTrap k t (t.scalarTrap c ea))
        | .walk w => .next (s.askAll t [w] [])
        | .held => .next s
        | .fill _ => go s
        | .ok _ _ => go s

def execCflush (f : CA) (s : State) : Result := cacheWrite (.cflush f) f s false
def execCinv (f : CA) (s : State) : Result := cacheWrite (.cinv f) f s true

end Sys2Proof.Machine
end

