-- ==== Sys2Proof/Machine/Atomic.lean ====
section
/-! DEFINITION. Reductions at memory and atomics (spec/06 R167, R168, spec/10 R229 to R234): their issue, and their
performance at the destination. -/

namespace Sys2Proof.Machine

/-! ### Destinations of engine threads, AMOs and updates -/

/-- How the line of an access that is performed at its home stands: here, at a peer, or not yet to be performed. -/
inductive Dest where
  | here (s : State) (loc : Loc)
  | peer (s : State) (p : Page)
  | blocked (s : State)
  /-- its page refuses it, or its fault has been declared fatal -/
  | refused (cause : BitVec 8)
  deriving DecidableEq, Repr

/-- The die of a team's core. -/
def State.dieOfTeam (s : State) (k : Nat) : Nat := ((s.team k).map (·.core.toNat / 64)).getD 4

/-- The destination of an access for team `k` (R242, R446, R447): a line held for another team, withdrawn from a window
or copied by peers waits; a translation fault asks for its record and waits until it is answered; a page that refuses by
now is protection (R387), a fatal verdict cause 0x04 (R392). -/
def State.destination (s : State) (k : Nat) (tag : BitVec 16) (va : Nat) (need : Need) (user : Bool) : Dest :=
  if need == .store && s.heldAgainst (some k) tag va then .blocked s
  else
    match s.reach (vaultTlb tag va) tag va need user false with
    | .ready s' loc =>
      if need == .store then (if (s'.planesOf tag va).isEmpty then .here s' loc else .blocked (s'.invalidate tag va))
      else .here s' loc
    | .peer s p => .peer s p
    | .protect => .refused 0x05
    | .held => .blocked s
    | .fault _ =>
      if s.isFatal k tag va need then .refused 0x04
      else
        match s.team k with
        | none => .blocked s
        | some t => .blocked (s.askWalk { t.walkFor k tag va need with user := user })

/-- The destination of a store that its issue has checked under page `p`, so that it is neither refused nor faults any more
(R168): as `destination`, without a translation. -/
def State.checkedDest (s : State) (k : Nat) (tag : BitVec 16) (va : Nat) (p : Page) : Dest :=
  let here (s : State) (loc : Loc) : Dest := if (s.planesOf tag va).isEmpty then .here s loc else .blocked (s.invalidate tag va)
  if s.heldAgainst (some k) tag va then .blocked s
  else
    match s.findWindow tag va with
    | some (g, w) =>
      if w.stat == .closing then .blocked s else here s (.pool g w.group (w.off + (va % 2 ^ 48 - w.base)))
    | none =>
      let held := Tab.find s.lines (lineKey tag va)
      let page := (held.map (Line.page · va)).getD p
      if page.pa / 2 ^ 52 != s.fabric.fmod.toNat then .peer s page
      else here (if held.isSome then s else s.fillLine tag va p) (.virt tag (va % 2 ^ 48))

/-- The page under which a store of a team to an address stands when its check has passed: that of the window's home line, of
the cached line, or of the translation. -/
def State.checkedPage (s : State) (t : Team) (va : Nat) : Option Page :=
  let tag := tagOf (t.asid.setWidth 16) va
  match s.findWindow tag va with
  | some (_, w) => (Tab.find w.home ((va % 2 ^ 48 - w.base) / 128)).map (Line.page · va)
  | none =>
    match Tab.find s.lines (lineKey tag va) with
    | some l => some (l.page va)
    | none =>
      match s.translate (vaultTlb tag va) tag va .store (!t.sys) false with
      | (.page p, _) => some p
      | _ => none

/-- What an engine thread of team `k` must see first is performed (R226): the entries of its core's queue before `fork`,
and the team's AMOs before the operation `op`. -/
def State.forkDone (s : State) (core k fork op : Nat) : Bool :=
  !((s.core core).queue.any fun e => e.n < fork) && !(s.amos.any fun a => a.team == k && a.op < op)

/-- Whether the stores that a commit's thread must see have drained and been accepted: the team's own (R239 step 1) and those
that its loads have read (R226). -/
def State.storesOut (s : State) (k : Nat) (t : Team) : Bool :=
  !((s.core t.core.toNat).queue.any fun e => e.team == k || t.seen.contains e.n || t.acquired.contains e.n)

/-- The commit requests whose step 1 has ended reach their arbiters (R239). -/
def State.arriveCommits (s : State) : State :=
  { s with commits := s.commits.map fun c =>
      if c.arrived.isNone && ((s.team c.team).map (s.storesOut c.team)).getD false then
        { c with arrived := some s.cycle.toNat }
      else c }

/-- The name of an operation of a team, as the device's events give it (log 6). -/
def opName (team op : Nat) : Nat := team * 2 ^ 32 + op

/-- The clock order of a DET grid: hold an operation for the next serial phase (R362, R364, R365). -/
def State.hold (s : State) (t : Team) (i : Instr) (cmd : HeldCmd) (escalated : Bool) : State :=
  s.modGrid t.seq fun g =>
    { g with held := g.held ++
        [{ clock := t.retired.toNat, linear := t.gang * t.launch.teams + t.num, team := t.key, instr := i, cmd := cmd
           escalated := escalated }] }

/-- A synchronising operation reaches its check: under DET in user mode the team parks at it (R361, R364); otherwise it
is performed by `f`. -/
def syncOp (i : Instr) (s : State) (k : Nat) (t : Team) (f : State → Nat → Team → State) : Result :=
  if t.buffers then
    .next ((s.setTeam k { t with park := some .sync }).hold t i .sync (t.txstat.active && t.txstat.esc))
  else .next (f s k t)

/-! ### Reductions (R167, R168) -/

/-- Bytes of a reduction's destination element. -/
def redWidth (form : BitVec 2) : Nat := if form == 3 then 8 else 4

/-- The accesses of a pass of RED: one word per lane, or the base alone (R167). -/
def redAccs (form : BitVec 2) (base : W64) (w : Nat) (eff : W32) : List LaneAcc :=
  (activeBits eff).map fun b =>
    { lane := 32 * w + b, ea := if form.toNat < 2 then base + BitVec.ofNat 64 (4 * (32 * w + b)) else base }

/-- How the passes of a RED stand: the data of its lanes, a trap, or a wait. -/
inductive RedStat where
  | ready (lanes : List (Nat × W32))
  | trap (r : TrapRec)
  | wait (ws : List Walk)
  deriving DecidableEq, Repr

/-- Check every pass in ascending order; the trap is precise at the instruction (R168). -/
def State.redPasses (s : State) (k : Nat) (t : Team) (d : Nat) (form : BitVec 2) (base : W64) :
    List (Nat × W32) → RedStat
  | [] => .ready []
  | (w, eff) :: rest =>
    match t.readable [d] w with
    | some r => .trap { r with pass := 0 }  -- TRAPPASS 0 (R160, R168), with R36's lane 32w: DEDUCED, log 106
    | none =>
      match s.passStat k t false .store (redWidth form) (redAccs form base w eff) with
      | .trap lane c ea => .trap { t.at c ea with lane := lane }
      | .wait ws _ => .wait ws
      | .ready _ =>
        match s.redPasses k t d form base rest with
        | .ready ls => .ready ((activeBits eff).map (fun b => (32 * w + b, BitVec.ofNat 32 (t.elem false d w b))) ++ ls)
        | r => r

/-- The addend steps of a reduction: address and data, in ascending address or lane (R167). -/
def RedCmd.steps (r : RedCmd) : List (Nat × W32) :=
  r.lanes.map fun e => (if r.form.toNat < 2 then (r.base + 4 * e.1) % 2 ^ 64 else r.base, e.2)

/-- The distinct lines of a list of addresses. -/
def distinctAddrLines (l : List Nat) : List Nat := l.foldl (fun m a => insertNat (a / 128) m) []

/-- The lines that a reduction updates. -/
def RedCmd.addrLines (r : RedCmd) : List Nat := distinctAddrLines (r.steps.map (·.1))

/-- RED: the checked command leaves the core with its data; under DET it is held (R168, R365). Inside a transaction it takes
transaction misuse (R243), unless every pass is skipped, when it retires (R15). -/
def reduction (i : Instr) (f : RD) (form : BitVec 2) (s : State) : Result :=
  issuePass s (fun t => f.s.toNat :: t.guardRegs)
    (fun t => trapIf t.guardBeyond (t.illegal (wordOf i) 9)) (fun t => t.issued.isEmpty) fun k t =>
    if t.txstat.active then .next (s.raise k (t.misuse (wordOf i)))
    else if !t.pathRoom pathDRN then .next s
    else
      let base := t.sreg f.s.toNat
      match s.redPasses k t f.d.toNat form base t.issued with
      | .trap r => .next ((s.setTeam k t).accessTrap k t r)
      | .wait ws => .next (s.askAll t ws [])
      | .ready lanes =>
        let r : RedCmd :=
          { op := t.opSeq, team := k, sys := t.sys, asid := t.asid.setWidth 16, base := base.toNat
            form := form, lanes := lanes, pc := t.pc, fork := (s.core t.core.toNat).entered }
        let r := { r with pages := r.addrLines.filterMap fun l => (s.checkedPage t (128 * l)).map (l, ·) }
        let s := if t.buffers then s.hold t i (.red r) false else { s with reds := s.reds ++ [r] }
        s.commit k ((t.startOp pathDRN).detIf t.sys 6).retire

def execRedadd (f : RD) (s : State) : Result := reduction (.redadd f) f (if f.t then 1 else 0) s
def execRedadds (f : RD) (s : State) : Result := reduction (.redadds f) f (if f.t then 3 else 2) s

/-- One addend applied to a value (R104, R167). -/
def redStep (form : BitVec 2) (old : Nat) (d : W32) : Nat × Flags :=
  match form.toNat with
  | 1 => ((old + d.toNat) % 2 ^ 32, 0)
  | 3 => ((old + (d.signExtend 64).toNat) % 2 ^ 64, 0)
  | _ => fmtF32.fadd .rne false old d.toNat

/-- How the lines of an operation stand: all reachable, with those at peers; one must wait; one is refused, at an address. -/
inductive Dests where
  | ready (s : State) (peers : List (Nat × Page))
  | wait (s : State)
  | refused (cause : BitVec 8) (va : Nat)
  deriving DecidableEq, Repr

/-- Make every line of an operation reachable, and find those at peers; `pages` holds the pages of lines that its issue has
checked (R168). A peer's line that is read is filled first (R446). -/
def State.destinations (s : State) (k : Nat) (asid : BitVec 16) (need : Need) (user : Bool) (pages : Tab Page) :
    List Nat → Dests
  | [] => .ready s []
  | line :: rest =>
    let tag := tagOf asid (128 * line)
    match (match Tab.find pages line with
      | some p => s.checkedDest k tag (128 * line) p
      | none => s.destination k tag (128 * line) need user) with
    | .blocked s => .wait s
    | .refused c => .refused c (128 * line)
    | .here s _ => State.destinations s k asid need user pages rest
    | .peer s p =>
      if need == .load then .wait (s.requestLine tag (128 * line) p 2 (some k) ((s.team k).map (·.seq)))
      else
        match State.destinations s k asid need user pages rest with
        | .ready s ps => .ready s ((line, p) :: ps)
        | r => r

/-- An access of an engine operation of team `k` is refused or declared fatal after its issue: the team takes the cause as a
reported trap, as R323 has it for copies. The spec is silent on other commands (DESIGN CHOICE, log 41). -/
def State.reportRefused (s : State) (k : Nat) (pc : Addr) (sys : Bool) (cause : BitVec 8) (va : Nat) : State :=
  ((if cause == 0x04 then s.spendFatal k else s)).report k
    { cause := cause, pc := pc, info := BitVec.ofNat 64 va, isReport := true } sys

/-- Read `n` coherent bytes at an address of a present line. -/
def State.readAt (s : State) (tag : BitVec 16) (va n : Nat) : Nat :=
  leNat ((List.range n).map fun i => s.readLoc (s.locOf tag (va + i)))

/-- Write `n` coherent bytes at an address of a present line. -/
def State.writeAt (s : State) (who : Option Nat) (tag : BitVec 16) (va n v : Nat) : State :=
  let loc := s.locOf tag va
  s.performStore who loc.line ((List.range n).map fun i => (loc.inLine + i, (leBytes n v).getD i 0))

/-- Whether bytes at an address were last written outside a DET grid (R373). -/
def State.outsideAt (s : State) (seq : Nat) (tag : BitVec 16) (va n : Nat) : Bool :=
  match s.grid seq with
  | none => false
  | some g => g.packet.flags.getLsbD 0 && (List.range n).any fun i => g.outside.contains (s.locOf tag (va + i))

/-- An engine thread of a team meets poison: MXFLAGS.POISON and the record (R288, R407). -/
def State.enginePoison (s : State) (k : Nat) (addr : Nat) (pc : Addr) : State :=
  match s.team k with
  | none => s
  | some t =>
    (s.setTeam k ({ t with mxflags := t.mxflags ||| 32 }.detEvent 8 pc)).poisonRecord (t.core.toNat / 64)
      t.launch.number.toNat addr 2

/-- The grid is the last writer of bytes at a peer (R373). -/
def State.noteOwn (s : State) (seq : Nat) (tag : BitVec 16) (va n : Nat) : State :=
  let loc := s.locOf tag va
  s.noteWrite (some seq) loc.line ((List.range n).map fun i => (loc.inLine + i, 0))

/-- Apply the addends of a reduction at their addresses, all at one instant; those at peers are applied there. -/
def State.redApply (s : State) (r : RedCmd) (seq : Nat) (peers : List (Nat × Page)) :
    List (Nat × W32) → Flags → State × Flags
  | [], fl => (s, fl)
  | (a, d) :: rest, fl =>
    let n := redWidth r.form
    let tag := tagOf r.asid a
    let outside (s : State) : State :=
      if s.outsideAt seq tag a n then s.modTeam r.team fun t => t.detEvent 5 r.pc else s
    if peers.any fun p => p.1 == a / 128 then State.redApply ((outside s).noteOwn seq tag a n) r seq peers rest fl
    else
      let s := if s.poisonLoc (s.locOf tag a) then s.enginePoison r.team a r.pc else s
      let s := outside (s.noteLoads (some seq) [s.locOf tag a])
      let (v, f) := redStep r.form (s.readAt tag a n) d
      State.redApply (s.writeAt (some seq) tag a n v) r seq peers rest (fl ||| f)

/-- MXFLAGS.POISON of a team (R290). -/
def State.flagPoison (s : State) (team : Option Nat) : State :=
  match team with
  | none => s
  | some k => s.modTeam k fun t => { t with mxflags := t.mxflags ||| 32 }

/-- Add flags to a team's MXFLAGS (R289). -/
def Team.mxOr (t : Team) (fl : Flags) : Team := { t with mxflags := t.mxflags ||| fl.setWidth 64 }

/-- The counter of an operation of a team has not been lowered for it yet (R169, R170). -/
def Team.inFlight (t : Team) (op : Nat) : Bool := t.paths.any fun l => l.any fun f => f.id == op

/-- The table entries of a team's completed commands whose counters have been lowered are freed (R282). -/
def State.freeDone (s : State) (k : Nat) : State :=
  let kept (e : MEntry) : Bool := !(e.team == k && e.stat == .done && !((s.team k).any fun t => t.inFlight e.op))
  if s.clusters.all fun c => c.2.table.all kept then s
  else { s with clusters := s.clusters.map fun c => (c.1, { c.2 with table := c.2.table.filter kept }) }

/-- Complete an operation of a team (R169, R282, R287). -/
def State.finishOp (s : State) (k op : Nat) : State := (s.modTeam k fun t => t.completeOp op).freeDone k

/-- An update has been performed at the peers that home some of its lines: the copies here go (R447), and what the homes know of
other writers comes with the answer (R373). -/
def State.updatedAway (s : State) (peers : List (Nat × Page)) : State :=
  peers.foldl (fun s p => (s.dropRegion (128 * p.1 / 512)).homeWrites (.virt 0 (128 * p.1 % 2 ^ 48))) s

/-- The update of a reduction, at one instant (R167): its addends, and its completion with the flags of all of them (R168, R289);
one that failed at a peer is performed on no byte (R435, R445). -/
def State.finishRed (s : State) (r : RedCmd) (seq : Nat) (peers : List (Nat × Page)) : State :=
  let (s, fl) := if r.failed then (s, r.flags) else (s.updatedAway peers).redApply r seq peers r.steps r.flags
  ({ s with reds := s.reds.filter fun x => !(x.team == r.team && x.op == r.op) }.modTeam r.team fun t => t.mxOr fl).finishOp
    r.team r.op

/-- The 512-byte regions at peers that an update adds to, each with its module and its first line (R443). -/
def peerRegions (peers : List (Nat × Page)) : List (Nat × Nat) :=
  peers.foldl (fun l p => if l.any fun m => m.2 / 4 == p.1 / 4 then l else l ++ [(p.2.pa / 2 ^ 52, p.1)]) []

/-- The parts of an update at peers leave, one for each region of 512 bytes, by its own plane and order (R443, R446). -/
def State.sendUpdate (s : State) (team op : Nat) (seq : Nat) (bad : Bool) (peers : List (Nat × Page)) : State :=
  (peerRegions peers).foldl (fun s p =>
    s.send { dest := BitVec.ofNat 12 p.1, va := 128 * p.2, cls := 2, team := some team
             grid := some seq, op := op, what := .update, poisoned := bad }) s

/-- The CRC check of an update on its way to the home dies of its lines: whether it failed twice (R435). -/
def State.crossingLines (s : State) (die : Nat) (asid : BitVec 16) (lines : List Nat) : Bool × State :=
  lines.foldl (fun a l =>
    let (bad, s) := a.2.crossing die (tagOf asid (128 * l)) (128 * l)
    (a.1 || bad, s)) (false, s)

/-- Perform a reduction (R167), unless a line must wait; one whose CRC check between dies has failed twice is performed on no
byte and flags MXFLAGS.POISON (R435): that is known before any part of it leaves. Its parts at peers leave first (R446). Its
instant is the acceptance of the last of them, if none has failed: what it adds here is added, and what it has changed at peers
is seen here, in that same step (R219; DEDUCED, log 72). -/
def State.performRed (s : State) (r : RedCmd) : State :=
  match s.team r.team with
  | none => s
  | some t =>
    if r.acted && s.outPending r.team r.op then s
    else if !r.acted && !s.forkDone t.core.toNat r.team r.fork r.op then s
    else
      match s.destinations r.team r.asid .store (!r.sys) r.pages r.addrLines with
      | .wait s => s
      | .refused c va => (s.finishRed { r with failed := true } t.seq []).reportRefused r.team r.pc r.sys c va
      | .ready s peers =>
        if r.acted then s.finishRed r t.seq peers
        else
          let here := r.addrLines.filter fun l => !(peers.any (·.1 == l))
          let (bad, s) := s.crossingLines (t.core.toNat / 64) r.asid here
          if bad then (s.finishRed { r with failed := true } t.seq peers).flagPoison (some r.team)
          else if peers.isEmpty then s.finishRed r t.seq peers
          else
            let s := s.sendUpdate r.team r.op t.seq false peers
            { s with reds := s.reds.map fun (x : RedCmd) => if x == r then { r with acted := true } else x }

/-! ### Atomics (R230 to R234) -/

/-- What an AMO stores (R231): nothing for a failed CAS. -/
def amoNew (op : BitVec 3) (old a b : W64) : Option W64 :=
  match op.toNat with
  | 0 => some (old + a)
  | 1 => some (old &&& a)
  | 2 => some (old ||| a)
  | 3 => some (old ^^^ a)
  | 4 => some (if old.slt a then old else a)
  | 5 => some (if old.slt a then a else old)
  | 6 => some a
  | _ => if old = a then some b else none

/-- The AMO as its check sends it: path LDG is raised, s[D] awaits the old value. -/
def amoSend (f : AM) (op : BitVec 3) (s : State) (k : Nat) (t : Team) : State :=
  let t' := { t.startOp pathLDG with busy := insertNat f.d.toNat t.busy }.retire
  let a : Amo :=
    { team := k, path := 0, op := t.opSeq, code := op, d := f.d, tag := tagOf (t.asid.setWidth 16) (t.sreg f.s.toNat).toNat
      ea := (t.sreg f.s.toNat).toNat, operand := t.sreg f.d.toNat, other := t.sreg (f.d.toNat + 1), pc := t.pc
      user := !t.sys, fork := (s.core t.core.toNat).entered, seen := t.seen
      after := (s.core t.core.toNat).standing t.acquired, ahead := lookahead f.sv f.h }
  { s.setTeam k t' with amos := s.amos ++ [a] }

/-- The registers that an AMO reads and writes. -/
def amoUses (f : AM) (op : BitVec 3) : List Nat := (if op == 7 then [f.d.toNat + 1] else []) ++ [f.d.toNat, f.s.toNat]

/-- AMO (R230 to R234): its traps, the release wait of REL, then it leaves the core, or under DET waits for its serial
slot (R364). -/
def atomic (i : Instr) (f : AM) (op : BitVec 3) (s : State) : Result :=
  issueScalar s (fun _ => amoUses f op) fun k t =>
    if t.txstat.active then .next (s.raise k (t.misuse (wordOf i)))
    else
      match s.passStat k t false .store 8 [{ lane := 0, ea := t.sreg f.s.toNat }] with
      | .trap _ c ea => .next ((s.setTeam k t).accessTrap k t (t.at c ea))
      | .wait ws fs => .next (s.askAll t ws fs)
      | .ready locs =>
        if locs.any fun e => s.poisonLoc e.2.1 && !s.coveredByStore t e.2.1 true then
          .next (((s.modTeam k fun _ => t.detIf true 8).poisonRecord (t.core.toNat / 64) t.launch.number.toNat
            (t.sreg f.s.toNat).toNat 1).raise k (t.at 0x11 (t.sreg f.s.toNat)))
        else if !t.pathRoom pathLDG then .next s
        else if f.r && !s.released k t then .next s
        else syncOp i s k (t.detIf t.sys 6) (amoSend f op)

def execAmoadd (f : AM) (s : State) : Result := atomic (.amoadd f) f 0 s
def execAmoand (f : AM) (s : State) : Result := atomic (.amoand f) f 1 s
def execAmoor (f : AM) (s : State) : Result := atomic (.amoor f) f 2 s
def execAmoxor (f : AM) (s : State) : Result := atomic (.amoxor f) f 3 s
def execAmomin (f : AM) (s : State) : Result := atomic (.amomin f) f 4 s
def execAmomax (f : AM) (s : State) : Result := atomic (.amomax f) f 5 s
def execAmoswp (f : AM) (s : State) : Result := atomic (.amoswp f) f 6 s
def execAmocas (f : AM) (s : State) : Result := atomic (.amocas f) f 7 s

/-- The old value of an AMO arrives: s[D] is committed and path LDG lowered (R189, R232). -/
def State.amoArrive (s : State) (a : Amo) (old : W64) : State :=
  { s.modTeam a.team fun t => (t.arriveS a.d.toNat old).completeOp a.op with
    amos := s.amos.filter fun x => !(x.team == a.team && x.op == a.op) }

/-- An AMO that fails when it is performed changes nothing: it meets poison (R233, R402, R435), or its page refuses it or is
fatal by now (R387, R392). The trap is taken at the AMO, which has then not retired (DEDUCED, log 22). -/
def State.amoFail (s : State) (a : Amo) (cause : BitVec 8) : State :=
  match s.team a.team with
  | none => s
  | some t =>
    let t' := ({ t with busy := t.busy.filter (· != a.d.toNat) }.completeOp a.op)
    let t' := if cause == 0x11 then t'.detEvent 8 a.pc else t'
    let s := { s.setTeam a.team t' with amos := s.amos.filter fun x => !(x.team == a.team && x.op == a.op) }
    let s := if cause == 0x11 then s.poisonRecord (t.core.toNat / 64) t.launch.number.toNat a.ea 1 else s
    let s := if cause == 0x04 then s.spendFatal a.team else s
    let r : TrapRec := { cause := cause, pc := a.pc, info := BitVec.ofNat 64 a.ea }
    if t.stat == .running then
      (s.setTeam a.team
        { t' with
          pc := a.pc, retired := if a.user then t.retired - 1 else t.retired
          park := if t.park == some .clock then none else t.park }).raise a.team r
    else s

/-- An AMO that meets poison. -/
def State.amoPoison (s : State) (a : Amo) : State := s.amoFail a 0x11

/-- The team's own view of the doubleword: in system mode under DET its private buffer comes first (R371). -/
def Team.overlay (t : Team) (loc : Loc) (i : Nat) (b : Byte) : Byte :=
  if t.launch.det then (t.buffered (loc.add i)).getD b else b

/-- The AMO has been sent to a peer. -/
def State.amoSent (s : State) (a : Amo) : State :=
  { s with amos := s.amos.map fun (x : Amo) => { x with sent := x.sent || (x.team == a.team && x.op == a.op) } }

/-- Perform an AMO at its home slice or owner pool (R231, R232), unless it must wait; at a peer it is sent (R446). One that
meets poison there, or whose CRC check between dies has failed twice, is performed on no byte (R233, R435). -/
def State.performAmo (s : State) (a : Amo) : State :=
  match s.team a.team with
  | none => s
  | some t =>
    let line := (s.locOf a.tag a.ea).line
    if a.sent || (s.core t.core.toNat).queue.any (fun e =>
        a.after.contains e.n || (e.loc == line && ((e.team == a.team && e.n < a.fork) || a.seen.contains e.n))) then s
    else
      match s.destination a.team a.tag a.ea .store a.user with
      | .blocked s => s
      | .refused c => s.amoFail a c
      | .peer s p =>
        let x : OutTxn :=
          { dest := BitVec.ofNat 12 (p.pa / 2 ^ 52), va := a.ea, cls := 0, team := some a.team, grid := some t.seq
            op := a.op, what := .amo }
        (s.amoSent a).send x
      | .here s loc =>
        let (bad, s) := s.crossing (t.core.toNat / 64) a.tag a.ea
        if bad || s.poisonLoc loc then s.amoPoison a
        else
          let s := s.noteLoads (some t.seq) [loc]
          let s := if s.outsideAt t.seq a.tag a.ea 8 then s.modTeam a.team fun t => t.detEvent 5 a.pc else s
          let old : W64 := BitVec.ofNat 64
            (leNat ((List.range 8).map fun i => t.overlay loc i (s.readLoc (loc.add i))))
          let s := match amoNew a.code old a.operand a.other with
            | none => s
            | some v =>
              let es : List QEntry :=
                [{ team := a.team, path := 0, op := a.op, loc := loc.line, bytes := storeBytes loc 8 v.toNat }]
              (s.performStore (some t.seq) loc.line (storeBytes loc 8 v.toNat)).modTeam a.team fun t =>
                if t.launch.det then t.unbuffer es else t
          s.amoArrive a old

/-- AMO_PERFORM: the `n`-th AMO on its way is performed (R232). -/
def execAmoPerform (n : Nat) (s : State) : Result :=
  match s.amos[n]? with
  | none => .next s
  | some a => .next (s.performAmo a)

end Sys2Proof.Machine
end

