-- ==== Sys2Proof/Machine/Scalar.lean ====
section
/-! DEFINITION. Scalar arithmetic, constants, compares and mask blocks (spec/04 R109 to R116). -/

namespace Sys2Proof.Machine

/-- An instruction that writes one scalar register from the team's state and retires. -/
def scalarTo (s : State) (uses : List (BitVec 7)) (d : BitVec 7) (v : Team → W64) : Result :=
  issueScalar s (fun _ => d.toNat :: uses.map (·.toNat)) fun k t => s.commit k ((t.setS d.toNat (v t)).retire)

/-- S3: d := op(a, b) (R110). -/
def scalar3 (f : S3) (s : State) (op : W64 → W64 → W64) : Result :=
  scalarTo s [f.a, f.b] f.d fun t => op (t.src f.a) (t.src f.b)

/-- SI: d := op(a, Sext(IMM10, 10)) (R111). -/
def scalarImm (f : SI) (s : State) (op : W64 → W64 → W64) : Result :=
  scalarTo s [f.a] f.d fun t => op (t.src f.a) (f.i.signExtend 64)

/-- SI of the shifts: d := op(a, IMM10[5:0]) (R111). -/
def scalarShift (f : SH) (s : State) (op : W64 → Nat → W64) : Result :=
  scalarTo s [f.a] f.d fun t => op (t.src f.a) f.i.toNat

/-- FS: d := op(a) (R114). -/
def scalarFn (f : FS) (s : State) (op : W64 → W64) : Result :=
  scalarTo s [f.a] f.d fun t => op (t.src f.a)

/-- The shift amount b[5:0] (R110). -/
def amount (b : W64) : Nat := b.toNat % 64

/-- The high half of a signed product (R110). -/
def mulHighS (a b : W64) : W64 := BitVec.ofInt 64 (a.toInt * b.toInt / 2 ^ 64)
/-- The high half of an unsigned product (R110). -/
def mulHighU (a b : W64) : W64 := BitVec.ofNat 64 (a.toNat * b.toNat / 2 ^ 64)

def execSadd (f : S3) (s : State) : Result := scalar3 f s (· + ·)
def execSsub (f : S3) (s : State) : Result := scalar3 f s (· - ·)
def execSmul (f : S3) (s : State) : Result := scalar3 f s (· * ·)
def execSmulh (f : S3) (s : State) : Result := scalar3 f s mulHighS
def execSand (f : S3) (s : State) : Result := scalar3 f s (· &&& ·)
def execSor (f : S3) (s : State) : Result := scalar3 f s (· ||| ·)
def execSxor (f : S3) (s : State) : Result := scalar3 f s (· ^^^ ·)
def execSandn (f : S3) (s : State) : Result := scalar3 f s fun a b => a &&& ~~~b
def execSshl (f : S3) (s : State) : Result := scalar3 f s fun a b => a <<< amount b
def execSshr (f : S3) (s : State) : Result := scalar3 f s fun a b => a >>> amount b
def execSsar (f : S3) (s : State) : Result := scalar3 f s fun a b => a.sshiftRight (amount b)
def execSrot (f : S3) (s : State) : Result := scalar3 f s fun a b => a.rotateLeft (amount b)
def execSmin (f : S3) (s : State) : Result := scalar3 f s fun a b => if a.slt b then a else b
def execSmax (f : S3) (s : State) : Result := scalar3 f s fun a b => if a.slt b then b else a
def execSminu (f : S3) (s : State) : Result := scalar3 f s fun a b => if a.ult b then a else b
def execSmaxu (f : S3) (s : State) : Result := scalar3 f s fun a b => if a.ult b then b else a
def execSlea4 (f : S3) (s : State) : Result := scalar3 f s fun a b => a + 4 * b
def execSlea8 (f : S3) (s : State) : Result := scalar3 f s fun a b => a + 8 * b
def execSmulhu (f : S3) (s : State) : Result := scalar3 f s mulHighU

def execSaddi (f : SI) (s : State) : Result := scalarImm f s (· + ·)
def execSandi (f : SI) (s : State) : Result := scalarImm f s (· &&& ·)
def execSshli (f : SH) (s : State) : Result := scalarShift f s fun a n => a <<< n
def execSshri (f : SH) (s : State) : Result := scalarShift f s fun a n => a >>> n

/-- The low `n` bits of `d` kept, IMM17 in the 17 bits above, sign copies over the rest (R112). -/
def setField (d : W64) (n : Nat) (i : BitVec 17) : W64 := BitVec.ofNat 64 (d.toNat % 2 ^ n) ||| (i.signExtend 64 <<< n)

/-- LS: d := op(d, IMM17) (R112). -/
def scalarConst (f : LI) (s : State) (op : W64 → BitVec 17 → W64) : Result :=
  scalarTo s [f.d] f.d fun t => op (t.src f.d) f.i

def execSmovi (f : LI) (s : State) : Result := scalarConst f s fun _ i => i.signExtend 64
def execSseth (f : LI) (s : State) : Result := scalarConst f s fun d i => setField d 17 i
def execSsett (f : LI) (s : State) : Result := scalarConst f s fun d i => setField d 34 i

/-- SCMP (R113). -/
def execScmp (f : CS) (s : State) : Result :=
  scalarTo s [f.a, f.b] f.d fun t => if scalarCond f.c (t.src f.a) (t.src f.b) then 1 else 0

/-- Number of set bits. -/
def popCount : Nat → Nat → Nat
  | 0, _ => 0
  | n + 1, x => x % 2 + popCount n (x / 2)

/-- Zero bits above the highest set bit of a `w`-bit number. -/
def leadZeros (w x : Nat) : Nat := if x = 0 then w else w - 1 - x.log2

/-- Zero bits below the lowest set bit of a `w`-bit number. -/
def trailZeros (w x : Nat) : Nat := ((List.range w).find? (x.testBit ·)).getD w

/-- Bits of a `w`-bit number in reverse order. -/
def revBits (w x : Nat) : Nat := (List.range w).foldl (fun n i => 2 * n + (if x.testBit i then 1 else 0)) 0

def execSmov (f : FS) (s : State) : Result := scalarFn f s id
def execSnot (f : FS) (s : State) : Result := scalarFn f s fun a => ~~~a
def execSneg (f : FS) (s : State) : Result := scalarFn f s fun a => -a
def execSpopc (f : FS) (s : State) : Result := scalarFn f s fun a => BitVec.ofNat 64 (popCount 64 a.toNat)
def execSclz (f : FS) (s : State) : Result := scalarFn f s fun a => BitVec.ofNat 64 (leadZeros 64 a.toNat)
def execSctz (f : FS) (s : State) : Result := scalarFn f s fun a => BitVec.ofNat 64 (trailZeros 64 a.toNat)
def execSbrev (f : FS) (s : State) : Result := scalarFn f s fun a => BitVec.ofNat 64 (revBits 64 a.toNat)
def execSsext32 (f : FS) (s : State) : Result := scalarFn f s fun a => (a.setWidth 32).signExtend 64
def execSzext32 (f : FS) (s : State) : Result := scalarFn f s fun a => (a.setWidth 32).setWidth 64
def execSabs (f : FS) (s : State) : Result := scalarFn f s fun a => if a.msb then -a else a

/-! ### Mask blocks (R115, R116) -/

/-- An instruction over mask blocks: source fields `srcs`, an effect on the team; check 10 covers `srcs` and the
destination block of `dst`. -/
def maskOp (i : Instr) (s : State) (srcs dst : List (BitVec 7)) (one : List (BitVec 7)) (f : Team → Team) : Result :=
  issueChecked s (fun t => ((srcs ++ dst).flatMap fun b => t.blockFields b.toNat) ++ one.map (·.toNat))
    (fun t => trapIf ((srcs ++ dst).any fun b => t.blockBeyond b.toNat) (t.illegal (wordOf i) 10)) fun k t =>
      s.commit k (f t).retire

/-- MALU: mask bits combined bit by bit (R115). -/
def maskAlu (i : Instr) (f : S3) (s : State) (op : Nat → Nat → Nat) : Result :=
  maskOp i s [f.a, f.b] [f.d] [] fun t => t.setBlock f.d.toNat (op (t.block f.a.toNat) (t.block f.b.toNat))

def execMand (f : S3) (s : State) : Result := maskAlu (.mand f) f s (· &&& ·)
def execMandn (f : S3) (s : State) : Result := maskAlu (.mandn f) f s fun x y => x ^^^ (x &&& y)
def execMor (f : S3) (s : State) : Result := maskAlu (.mor f) f s (· ||| ·)
def execMxor (f : S3) (s : State) : Result := maskAlu (.mxor f) f s (· ^^^ ·)

def execMnot (f : FS) (s : State) : Result :=
  maskOp (.mnot f) s [f.a] [f.d] [] fun t => t.setBlock f.d.toNat (2 ^ t.lanes - 1 - t.block f.a.toNat)
def execMpopc (f : FS) (s : State) : Result :=
  maskOp (.mpopc f) s [f.a] [] [f.d] fun t =>
    t.setS f.d.toNat (BitVec.ofNat 64 (popCount t.lanes (t.block f.a.toNat)))
def execMffs (f : FS) (s : State) : Result :=
  maskOp (.mffs f) s [f.a] [] [f.d] fun t =>
    t.setS f.d.toNat
      (if t.block f.a.toNat = 0 then -1 else BitVec.ofNat 64 (trailZeros t.lanes (t.block f.a.toNat)))
def execMset (f : FS) (s : State) : Result :=
  maskOp (.mset f) s [] [f.d] [] fun t => t.setBlock f.d.toNat (2 ^ t.lanes - 1)
def execMclr (f : FS) (s : State) : Result := maskOp (.mclr f) s [] [f.d] [] fun t => t.setBlock f.d.toNat 0
def execMcpy (f : FS) (s : State) : Result :=
  maskOp (.mcpy f) s [f.a] [f.d] [] fun t => t.setBlock f.d.toNat (t.block f.a.toNat)

end Sys2Proof.Machine
end

