-- ==== Sys2Proof/Machine/Control.lean ====
section
/-! DEFINITION. Branches, calls and jumps (spec/04 R117 to R120). -/

namespace Sys2Proof.Machine

/-- Target := PC + 4 × Sext(OFF18, 18), modulo 2^48 (R117). -/
def Team.branchTarget (t : Team) (o : BitVec 18) : Addr := t.pc + 4 * o.signExtend 48

/-- A branch, taken when `c` holds (R117). -/
def branch (f : BX) (s : State) (uses : List Nat) (c : Team → Bool) : Result :=
  issueScalar s (fun _ => uses) fun k t =>
    s.commit k (if c t then t.retireTo (t.branchTarget f.o) else t.retire)

def execBr (f : BX) (s : State) : Result := branch f s [] fun _ => true
def execBrz (f : BX) (s : State) : Result := branch f s [f.s.toNat] fun t => t.sreg f.s.toNat == 0
def execBrnz (f : BX) (s : State) : Result := branch f s [f.s.toNat] fun t => t.sreg f.s.toNat != 0

/-- A branch on a whole mask block (R109, R117). -/
def branchMask (i : Instr) (f : BX) (s : State) (c : Nat → Bool) : Result :=
  issueChecked s (fun t => t.blockFields f.s.toNat)
    (fun t => trapIf (t.blockBeyond f.s.toNat) (t.illegal (wordOf i) 10)) fun k t =>
      s.commit k (if c (t.block f.s.toNat) then t.retireTo (t.branchTarget f.o) else t.retire)

def execBrzm (f : BX) (s : State) : Result := branchMask (.brzm f) f s (· == 0)
def execBrnzm (f : BX) (s : State) : Result := branchMask (.brnzm f) f s (· != 0)

/-- CALL: the link, then the target (R117). -/
def execCall (f : BX) (s : State) : Result :=
  issueScalar s (fun _ => [f.s.toNat]) fun k t =>
    s.commit k ((t.setS f.s.toNat ((t.pc + 4).setWidth 64)).retireTo (t.branchTarget f.o))

/-- A jump to a register target (R118); `link` writes the link first. -/
def jump (f : FS) (s : State) (link : Bool) : Result :=
  issueScalar s (fun _ => if link then [f.d.toNat, f.a.toNat] else [f.a.toNat]) fun k t =>
    let a := t.src f.a
    if a.toNat / 2 ^ 48 != 0 then .next (s.raise k (t.at 0x05 a))
    else if a.toNat % 4 != 0 then .next (s.raise k (t.at 0x03 a))
    else s.commit k ((if link then t.setS f.d.toNat ((t.pc + 4).setWidth 64) else t).retireTo (a.setWidth 48))

def execJmpr (f : FS) (s : State) : Result := jump f s false
def execCallr (f : FS) (s : State) : Result := jump f s true
def execRet (f : FS) (s : State) : Result := jump f s false

end Sys2Proof.Machine
end

