-- ==== Sys2Proof/Machine/Narrow.lean ====
section
/-! DEFINITION. The dithered narrow formats (spec/03 R81 to R98): values, reconstruction and quantisation. A
reconstruction is an exact multiple of 2^`NFmt.unit`. -/

namespace Sys2Proof.Machine

/-- The narrow formats with a code of R81. -/
inductive NFmt where
  | f8e4 | f8e5 | i8 | i4
  deriving DecidableEq, Repr

/-- The format of a code 0 to 3 (R81); codes above are reserved. -/
def NFmt.ofCode (n : Nat) : NFmt :=
  match n % 4 with
  | 0 => .f8e4
  | 1 => .f8e5
  | 2 => .i8
  | _ => .i4

/-- Bits of one code. -/
def NFmt.bits : NFmt → Nat
  | .i4 => 4
  | _ => 8

/-- Every value and every dither offset of the format is an integer multiple of 2^unit. -/
def NFmt.unit : NFmt → Int
  | .f8e4 => -14
  | .f8e5 => -21
  | .i8 | .i4 => -5

/-- The dithered zero (R82). -/
def NFmt.ditheredZero : NFmt → Nat
  | .i4 => 8
  | _ => 0x80

/-- The exponent field of an F8 code. -/
def NFmt.expField : NFmt → Nat → Nat
  | .f8e4, c => bitsOf c 6 3
  | .f8e5, c => bitsOf c 6 2
  | _, _ => 0

/-- Whether a code is a NaN (R81). -/
def NFmt.isNaN : NFmt → Nat → Bool
  | .f8e4, c => c % 128 == 0x7F
  | .f8e5, c => c % 128 > 0x7C
  | _, _ => false

/-- Whether a code is an infinity (R81). -/
def NFmt.isInf : NFmt → Nat → Bool
  | .f8e5, c => c % 128 == 0x7C
  | _, _ => false

def NFmt.finite (f : NFmt) (c : Nat) : Bool := !f.isNaN c && !f.isInf c

/-- |Value(c)| in units (R81). -/
def NFmt.mag (f : NFmt) (c : Nat) : Nat :=
  match f with
  | .f8e4 => if f.expField c = 0 then (c % 8) <<< 5 else (8 + c % 8) <<< (f.expField c + 4)
  | .f8e5 => if f.expField c = 0 then (c % 4) <<< 5 else (4 + c % 4) <<< (f.expField c + 4)
  | .i8 => 32 * (if c % 256 = 0x80 then 0 else (BitVec.ofNat 8 c).toInt.natAbs)
  | .i4 => 32 * (if c % 16 = 8 then 0 else (BitVec.ofNat 4 c).toInt.natAbs)

/-- Sign bit of a code. -/
def NFmt.neg? (f : NFmt) (c : Nat) : Bool := c.testBit (f.bits - 1)

/-- Value(c) in units (R81). -/
def NFmt.value (f : NFmt) (c : Nat) : Int := signedMant (f.neg? c) (f.mag c)

/-- 32 × Flicker(I, K): an odd integer from −15 to 15 (R85). -/
def flicker32 (i : Nat) (key : W32) : Int :=
  let x := BitVec.ofNat 32 (i * 0x9E3779B9) + key
  2 * ((x >>> 28).toNat : Int) - 15

/-- Ulp(c) / 32 in units (R84). -/
def NFmt.ulpUnit (f : NFmt) (c : Nat) : Nat :=
  match f with
  | .f8e4 | .f8e5 => 2 ^ (max (f.expField c) 1 - 1)
  | .i8 | .i4 => 1

/-- Recon of a finite code at frame index `i` under `key`, in units (R85). -/
def NFmt.recon (f : NFmt) (c i : Nat) (key : W32) : Int :=
  if c = 0 then 0 else f.value c - flicker32 i key * f.ulpUnit c

/-- Recon of any code as a value (R85). -/
def NFmt.reconVal (f : NFmt) (c i : Nat) (key : W32) : FVal :=
  if f.isNaN c then .nan false
  else if f.isInf c then .inf (f.neg? c)
  else
    let r := f.recon c i key
    .fin (r < 0) r.natAbs f.unit

/-- Fmax in units (R81). -/
def NFmt.fmax (f : NFmt) : Nat :=
  match f with
  | .f8e4 => f.mag 0x7E
  | .f8e5 => f.mag 0x7B
  | .i8 => 32 * 127
  | .i4 => 32 * 7

/-- The finite code of largest magnitude with a sign. -/
def NFmt.maxCode (f : NFmt) (neg : Bool) : Nat :=
  match f with
  | .f8e4 => if neg then 0xFE else 0x7E
  | .f8e5 => if neg then 0xFB else 0x7B
  | .i8 => if neg then 0x81 else 0x7F
  | .i4 => if neg then 0x9 else 0x7

/-- The nearest code among `cs`: least |Recon(c) − y|, the even code on a tie; `y` and the codes in units of
2^(unit − sh). -/
def NFmt.nearest (f : NFmt) (y : Int) (sh : Nat) (i : Nat) (key : W32) : List Nat → Nat × Nat → Nat × Nat
  | [], best => best
  | c :: t, best =>
    let d := (f.recon c i key * 2 ^ sh - y).natAbs
    f.nearest y sh i key t (if d < best.2 || (d == best.2 && c % 2 == 0) then (c, d) else best)

/-- Quantise(f, y, I, K) of a value, with its flags (R87). -/
def NFmt.quantise (f : NFmt) (y : FVal) (i : Nat) (key : W32) : Nat × Flags :=
  match y with
  | .nan s =>
    match f with
    | .f8e4 | .f8e5 => (0x7F, if s then flagNV else 0)
    | _ => (f.ditheredZero, flagNV)
  | .inf neg =>
    match f with
    | .f8e5 => (if neg then 0xFC else 0x7C, 0)
    | _ => (f.maxCode neg, flagOF)
  | .fin neg m e =>
    if m = 0 then (0, 0)
    else
      let sh := (f.unit - e).toNat
      let yi := signedMant neg (m <<< (e - f.unit).toNat)
      let tooBig := f.fmax <<< sh < yi.natAbs
      let codes := (List.range (2 ^ f.bits)).filter fun c => c != 0 && f.finite c
      let dz := f.ditheredZero
      let best := f.nearest yi sh i key codes (dz, (f.recon dz i key * 2 ^ sh - yi).natAbs)
      (best.1, if tooBig then flagOF else 0)

/-- Dequantise: RNE_F32(Recon(c) × s) for a scale `s` (R98), with its flags. -/
def NFmt.dequantise (f : NFmt) (c i : Nat) (key : W32) (scale : FVal) : Nat × Flags :=
  let (v, fl) := (f.reconVal c i key).mul scale
  let (b, fl2) := fmtF32.round .rne v
  (b, fl ||| fl2)

end Sys2Proof.Machine
end

