-- ==== Sys2Proof/Machine/MatrixVal.lean ====
section
/-! DEFINITION. What the matrix engine computes (spec/03 R93 to R105, spec/12 R274, R275, R279, R280, R292): operand
groups and PortValue, group sums and their special values, the accumulation step, the Taper check, the quantising
drain. -/

namespace Sys2Proof.Machine

/-! ### Operand groups (R99, R100) -/

/-- A code as an operand port reads it: stored code, the sign of its reconstruction, and PortValue in units of the
format. -/
structure PortTerm where
  code : Nat
  neg : Bool
  port : Int
  deriving DecidableEq, Repr

/-- floor(log2 |Value|) over the finite nonzero codes, counted from the format's unit (Eg of R99, emax of R97). -/
def NFmt.top (f : NFmt) (codes : List Nat) : Option Nat :=
  codes.foldl (fun m c =>
    if f.finite c && f.mag c != 0 then some (max (m.getD 0) (f.mag c).log2) else m) none

/-- A finite nonzero code below 2^(Eg − 18) (R97, R99). -/
def NFmt.belowFloor (f : NFmt) (top : Option Nat) (c : Nat) : Bool :=
  match top with
  | none => false
  | some g => f.finite c && f.mag c != 0 && f.mag c * 2 ^ 18 < 2 ^ g

/-- PortValue in units of the format (R99); 2^5 stands at place 26 above the unit of F8E5. A NaN or an infinity, which
R102 decides on the code, has none: zero stands for it. -/
def NFmt.portValue (f : NFmt) (top : Option Nat) (key : W32) (c i : Nat) : Int :=
  if !f.finite c then 0
  else if f == .f8e5 && (c == f.ditheredZero || f.belowFloor top c) then
    (if 26 ≤ top.getD 0 then 0 else f.recon f.ditheredZero i key)
  else f.recon c i key

/-- An operand group: its terms, the power of two of its quantum (R100). -/
structure PortGroup where
  fmt : NFmt
  terms : List PortTerm
  shift : Nat
  deriving DecidableEq, Repr

/-- Read sixteen codes with their frame indices (R99, R100). -/
def portGroup (f : NFmt) (key : W32) (g : List (Nat × Nat)) : PortGroup :=
  let top := f.top (g.map (·.1))
  { fmt := f
    terms := g.map fun e =>
      { code := e.1, neg := if f.isInf e.1 then f.neg? e.1 else f.recon e.1 e.2 key < 0
        port := f.portValue top key e.1 e.2 }
    shift := if f == .f8e5 then max (top.getD 0) 25 - 25 else 0 }

/-- α or β: PortValue in quanta (R100, R292). -/
def PortGroup.ints (g : PortGroup) : List Int := g.terms.map fun x => x.port / 2 ^ g.shift

/-- The exponent of the quantum. -/
def PortGroup.quantum (g : PortGroup) : Int := g.fmt.unit + g.shift

/-- The exact group sum N = Σ α β (R292). -/
def dot (a b : List Int) : Int := (List.zipWith (· * ·) a b).foldl (· + ·) 0

/-! ### Special values (R102, R289) -/

/-- The product of two stored codes where one is infinite: an infinity, or NaN for ∞ times the exact zero. -/
def infProduct (fa fb : NFmt) (x y : PortTerm) : Option FVal :=
  if fa.isInf x.code || fb.isInf y.code then
    if x.code == 0 || y.code == 0 then some (.nan false) else some (.inf (x.neg != y.neg))
  else none

/-- GroupSpecial with the flag of R289: none in the ordinary case. -/
def groupSpecial (a b : PortGroup) : Option (FVal × Flags) :=
  if (a.terms.any fun x => a.fmt.isNaN x.code) || (b.terms.any fun x => b.fmt.isNaN x.code) then some (.nan false, 0)
  else
    let ps := (List.zipWith (infProduct a.fmt b.fmt) a.terms b.terms).filterMap id
    match ps with
    | [] => none
    | p :: rest =>
      if p.isNaN || rest.any (· != p) then some (.nan false, flagNV) else some (p, 0)

/-! ### The accumulation step (R101, R104) -/

/-- An exact-zero contribution is +0 (R104). -/
def plusZero : FVal → FVal
  | .fin n m e => if m = 0 then .fin false 0 0 else .fin n m e
  | v => v

/-- The contribution of a group with claimed sum `n`: rounding one, under the scales of its blocks. -/
def contribution (a b : PortGroup) (n : Int) (sa sb : FVal) : Nat × Flags :=
  let p := (groupSpecial a b).getD (.fin (n < 0) n.natAbs (a.quantum + b.quantum), 0)
  let x := p.1.mul sa
  let y := x.1.mul sb
  let r := fmtF32.round .rne (plusZero y.1)
  (r.1, p.2 ||| x.2 ||| y.2 ||| r.2)

/-- One group step on an accumulator element: rounding two (R101). -/
def groupStep (a b : PortGroup) (n : Int) (sa sb : FVal) (c : Nat × Flags) : Nat × Flags :=
  let x := contribution a b n sa sb
  let r := fmtF32.fadd .rne false c.1 x.1
  (r.1, c.2 ||| x.2 ||| r.2)

/-! ### A pass (R274, R275) -/

/-- The operands of a pass: for each row of A and each column of B, four groups with their scales. -/
structure PassData where
  a : List (List (PortGroup × FVal))
  b : List (List (PortGroup × FVal))
  deriving DecidableEq, Repr

/-- The default group, of exact zeros. -/
def zeroGroup : PortGroup × FVal := ({ fmt := .i8, terms := [], shift := 0 }, .fin false 1 0)

def PassData.rowGroup (p : PassData) (i q : Nat) : PortGroup × FVal := (p.a.getD i []).getD q zeroGroup
def PassData.colGroup (p : PassData) (j q : Nat) : PortGroup × FVal := (p.b.getD j []).getD q zeroGroup

/-- By how much the arrays' claimed sum differs from the exact one (R292). -/
def claimError (claims : List SumError) (q i j : Nat) : Int :=
  claims.foldl (fun n c => if c.q == q && c.i == i && c.j == j then n + c.e else n) 0

/-- The claimed sum N′ of group q at (i, j). -/
def PassData.claimed (p : PassData) (claims : List SumError) (q i j : Nat) : Int :=
  dot (p.rowGroup i q).1.ints (p.colGroup j q).1.ints + claimError claims q i j

/-- The new element (i, j) of a tile, from its old value (R275). -/
def PassData.element (p : PassData) (claims : List SumError) (i j : Nat) (c : W32) : Nat × Flags :=
  (List.range 4).foldl (fun c q =>
    groupStep (p.rowGroup i q).1 (p.colGroup j q).1 (p.claimed claims q i j) (p.rowGroup i q).2 (p.colGroup j q).2 c)
    (c.toNat, 0)

/-- The new values of one half, whose column 0 is tile column `j0`. -/
def PassData.half (p : PassData) (claims : List SumError) (j0 : Nat) (old : List W32) : List W32 × Flags :=
  (old.zipIdx.map fun e => p.element claims (e.2 / 64) (j0 + e.2 % 64) e.1).foldr
    (fun r acc => (BitVec.ofNat 32 r.1 :: acc.1, r.2 ||| acc.2)) ([], 0)

/-! ### The Taper check (R292) -/

/-- M = 2^17 − 1. -/
def taperM : Int := 131071

/-- w(j) = 2^(j mod 17). -/
def taperW (j : Nat) : Int := 2 ^ (j % 17)

/-- A sum of `n` terms. -/
def sumTo (n : Nat) (f : Nat → Int) : Int := (List.range n).foldl (fun s j => s + f j) 0

/-- γ(t): the checksum of the columns of B. -/
def gamma (beta : Nat → Nat → Int) (t : Nat) : Int := sumTo 128 (fun j => taperW j * beta t j) % taperM

/-- ρ of an output row. -/
def rho (alpha : Nat → Int) (g : Nat → Int) : Int := sumTo 16 (fun t => alpha t * g t) % taperM

/-- claim of an output row. -/
def claim (n' : Nat → Int) : Int := sumTo 128 (fun j => taperW j * n' j) % taperM

/-- Row `i` of group `q` passes. -/
def PassData.rowPasses (p : PassData) (claims : List SumError) (q i : Nat) : Bool :=
  let g := (List.range 16).map (gamma fun t j => (p.colGroup j q).1.ints.getD t 0)
  rho (fun t => (p.rowGroup i q).1.ints.getD t 0) (g.getD · 0) == claim (p.claimed claims q i)

/-- The first failing group and row, as q × 64 + i (R295). -/
def PassData.firstFailing (p : PassData) (claims : List SumError) : Option Nat :=
  (List.range 256).find? fun n => !p.rowPasses claims (n / 64) (n % 64)

/-! ### The quantising drain (R95 to R97, R280) -/

/-- The place of the leading bit of a finite nonzero element; none otherwise. -/
def leadOf (x : W32) : Option Int :=
  match fmtF32.decode x.toNat with
  | .fin _ m e => if m = 0 then none else some (m.log2 + e)
  | _ => none

/-- The larger of two places, none being −∞. -/
def maxLead (a b : Option Int) : Option Int :=
  match a, b with
  | some x, some y => some (max x y)
  | none, b => b
  | a, none => a

/-- Whether two places lie further apart than the span. -/
def apart (a b : Option Int) (d : Nat) : Bool :=
  match a, b with
  | some x, some y => decide (d < (x - y).natAbs)
  | _, _ => false

/-- The boundaries of a row (R95): which of its groups start a block. -/
def boundaries (d : Nat) : List (Option Int) → Bool → Option Int → Nat → List Bool
  | [], _, _, _ => []
  | eg :: rest, first, eB, n =>
    if first || n == 16 || apart eg eB d then true :: boundaries d rest false eg 1
    else false :: boundaries d rest false (maxLead eB eg) (n + 1)

/-- Groups of 16 elements. -/
def groupsOf (x : List W32) : List (List W32) := (List.range (x.length / 16)).map fun g => (x.drop (16 * g)).take 16

def rowBoundaries (d : Nat) (x : List W32) : List Bool :=
  boundaries d ((groupsOf x).map fun g => (g.map leadOf).foldl maxLead none) true none 0

/-- The magnitude of a finite element; zero for the others. -/
def finMag (x : W32) : Nat := if (fmtF32.decode x.toNat).isNaN || x.toNat % 2 ^ 31 == 0x7F800000 then 0 else x.toNat % 2 ^ 31

/-- The scale of a block, a bfloat16 encoding (R96). Its rounding up raises no flag: R289 speaks of roundings under RNE alone
(DESIGN CHOICE, log 98). -/
def blockScale (f : NFmt) (x : List W32) : Nat :=
  match fmtF32.decode (x.foldl (fun m v => max m (finMag v)) 0) with
  | .fin _ m e => if m = 0 then 0x3F80 else (fmtBF16.roundDiv .rup false m e f.fmax f.unit).1
  | _ => 0x3F80

/-- The elements of a block quantised, the first at frame index `i0` (R96, R97). -/
def quantBlock (f : NFmt) (key : W32) (i0 : Nat) (x : List W32) : List Nat × Nat × Flags :=
  let s := blockScale f x
  let cs := x.zipIdx.map fun e =>
    let y := fmtF32.fdiv .rne false e.1.toNat (s * 2 ^ 16)
    let c := f.quantise (fmtF32.decode y.1) ((i0 + e.2) % 2 ^ 32) key
    (c.1, y.2 ||| c.2)
  let codes := cs.map (·.1)
  let top := f.top codes
  (if f == .f8e5 then codes.map fun c => if f.belowFloor top c then f.ditheredZero else c else codes,
    s, cs.foldl (fun fl c => fl ||| c.2) 0)

/-- A row as the quantiser writes it. -/
structure QuantRow where
  codes : List Nat := []
  bounds : List Bool := []
  scales : List Nat := []
  flags : Flags := 0
  deriving DecidableEq, Repr

/-- The elements of the blocks of a row: a block goes on while no boundary starts. -/
def blocksOf : List (Bool × List W32) → List (List W32)
  | [] => []
  | (_, g) :: rest =>
    match rest, blocksOf rest with
    | (false, _) :: _, c :: cs => (g ++ c) :: cs
    | _, cs => g :: cs

/-- Quantise the blocks of a row in order, the next element at frame index `i`. -/
def quantBlocks (f : NFmt) (key : W32) : Nat → List (List W32) → QuantRow
  | _, [] => {}
  | i, x :: rest =>
    let (codes, s, fl) := quantBlock f key i x
    let r := quantBlocks f key (i + x.length) rest
    { r with codes := codes ++ r.codes, scales := s :: r.scales, flags := fl ||| r.flags }

/-- A row of a tile quantised (R95 to R97): the first element has frame index `i0`. -/
def quantRow (f : NFmt) (key : W32) (span i0 : Nat) (x : List W32) : QuantRow :=
  let b := rowBoundaries span x
  { quantBlocks f key i0 (blocksOf (b.zip (groupsOf x))) with bounds := b }

/-- Codes as stored: one to a byte, or two (R83). -/
def packCodes (f : NFmt) : List Nat → List Byte
  | [] => []
  | [c] => [BitVec.ofNat 8 c]
  | c :: d :: rest =>
    if f.bits == 4 then BitVec.ofNat 8 (c % 16 + 16 * (d % 16)) :: packCodes f rest
    else BitVec.ofNat 8 c :: BitVec.ofNat 8 d :: packCodes f rest

/-- Codes as read (R83). -/
def unpackCodes (f : NFmt) (bs : List Byte) : List Nat :=
  if f.bits == 4 then bs.flatMap fun b => [b.toNat % 16, b.toNat / 16] else bs.map (·.toNat)

/-- The value of a bfloat16 scale. -/
def scaleVal (b : Nat) : FVal := fmtBF16.decode b

/-- An element converted to bfloat16 by MDRAINB (R279, R289). -/
def toBF16 (x : W32) : Nat × Flags :=
  let v := fmtF32.decode x.toNat
  let r := fmtBF16.round .rne v
  (r.1, v.sig ||| r.2)

end Sys2Proof.Machine
end

