-- ==== Sys2Proof/Machine/SysReg.lean ====
section
/-! DEFINITION. The system registers: who may name them (spec/11 R248 and the ranges of spec/12, 16, 18), their fields
and access codes (spec/00 R6), SYSR and SYSW (spec/04 R122). -/

namespace Sys2Proof.Machine

/-- Registers that user mode may read (R248, R290, R355). -/
def userReads (n : Nat) : Bool :=
  n ≤ 0x002 || (0x010 ≤ n && n ≤ 0x01D) || (0x048 ≤ n && n ≤ 0x04E) || n == 0x050 || n == 0x051 ||
    (0x080 ≤ n && n ≤ 0x084) || n == 0x0C0 || n == 0x0C2 || n == 0x0C3 || (0x0C8 ≤ n && n ≤ 0x0CF)

/-- Registers that user mode may write: FPFLAGS, FKEY, MXFLAGS. -/
def userWrites (n : Nat) : Bool := n == 0x010 || n == 0x011 || n == 0x080

/-- CAPS (R206). -/
def capsWord : W64 := 0x0101020FAA10800F

/-- The bits `hi` to `lo` of a word. -/
def maskBits (hi lo : Nat) : W64 := BitVec.ofNat 64 ((2 ^ (hi + 1 - lo) - 1) <<< lo)

/-- RW fields take the written bits, the others keep (R6). -/
def rwField (old v m : W64) : W64 := (old &&& ~~~m) ||| (v &&& m)

/-- RS bits in `rs` are cleared by a 0 written (R6). -/
def rsField (old v rs : W64) : W64 := old &&& (v ||| ~~~rs)

/-- A number placed at bit `lo`. -/
def atBit (n lo : Nat) : W64 := BitVec.ofNat 64 (n <<< lo)

/-! ### Registers of a core, a cluster and a die -/

/-- MARGIN (R205). -/
def CoreRegs.margin (c : CoreRegs) : W64 :=
  atBit c.misrate.toNat 24 ||| atBit c.thresh.toNat 16 ||| atBit c.step.toNat 8 ||| atBit c.stepmax.toNat 4 |||
    atBit c.adapt.toNat 0

/-- A write of MARGIN: while ADAPT is set, STEPMAX below STEP lowers STEP at once; STEP holds when ADAPT is cleared (R205). -/
def CoreRegs.setMargin (c : CoreRegs) (v : W64) : CoreRegs :=
  let m := v.extractLsb' 4 4
  { c with thresh := v.extractLsb' 16 8, stepmax := m, adapt := v.getLsbD 0, step := if v.getLsbD 0 && m < c.step then m else c.step }

/-- POOLCFG (R212). -/
def State.poolcfg (s : State) (core : Nat) : W64 :=
  let c := s.core core
  atBit (s.pinned core) 32 ||| atBit ((128 - c.poolReg - c.poolAcc) * 64) 16 ||| atBit c.poolAcc 8 ||| atBit c.poolReg 0

/-- A matrix pass holds the sub-arrays of its pair (R268, R290). -/
def MEntry.holds (e : MEntry) : Bool :=
  (e.kind == .mma || e.kind == .mmag) && (e.stat == .waking || e.stat == .running)

/-- A sub-array of the pair led by core `lead` of the cluster (R268). -/
def inPair (lead : BitVec 2) (n : Nat) : Bool := n == lead.toNat || n == (lead.toNat + 1) % 4

/-- MXSTAT (R290). -/
def State.mxstat (s : State) (cl : Nat) : W64 :=
  let r := s.cluster cl
  let bits (f : Nat → Bool) (n lo : Nat) : W64 :=
    (List.range n).foldl (fun w i => if f i then w ||| atBit 1 (lo + i) else w) 0
  bits (fun i => r.table.any fun e => e.holds && e.taper == i) 2 13 ||| atBit r.table.length 8 |||
    bits (fun i => r.table.any fun e => e.holds && inPair e.lead i) 4 4 |||
    bits (fun i => (s.core (4 * cl + i)).awake) 4 0

/-- QCAP (R397). -/
def Rail.cap (r : Rail) : Nat := r.qcap.getD r.ilim

/-- The rail of a core's quadrant. -/
def State.coreRail (s : State) (core : Nat) : Rail := (s.die (core / 64)).rails.getD (core % 64 / 16) {}

/-- A core's clock step is held at 8 or above while its quadrant has fewer than 16 healthy phases (R397). -/
def State.holdStep (s : State) (core : Nat) : State :=
  if (s.coreRail core).phok < 16 && (s.core core).step < 8 then s.modCore core fun c => { c with step := 8 } else s

/-- QRAILn (R395). -/
def Rail.word (r : Rail) : W64 :=
  atBit r.vmv.toNat 32 ||| atBit r.phok 24 ||| atBit r.derated.toNat 16 ||| atBit r.ilim 0

/-- A write of QRAILn: ILIM is clamped to 10 × PHOK (R395). -/
def Rail.write (r : Rail) (v : W64) : Rail :=
  { r with derated := r.derated && v.getLsbD 16, ilim := min (v.toNat % 65536) (10 * r.phok) }

/-- PLIM (R399). -/
def DieRegs.plim (d : DieRegs) : Nat := min d.hflim d.share

/-- DIEPWR (R399). -/
def DieRegs.pwrWord (d : DieRegs) : W64 :=
  atBit d.pwr 48 ||| atBit d.plim 32 ||| atBit d.hflim 16 |||
    atBit ((List.range 4).foldl (fun n i => if (d.rails.getD i {}).cap < (d.rails.getD i {}).ilim then n + 2 ^ i else n) 0) 4 |||
    atBit d.capped.toNat 0

/-- LLCTL (R355). -/
def DieRegs.llctl (d : DieRegs) : W64 := atBit d.minres.toNat 16 ||| atBit d.hyst.toNat 8 ||| atBit d.migen.toNat 0

/-! ### Read and write -/

/-- DETCAUSE as read: BROKEN is the OR of CAUSES[8:2] (R375). -/
def detcauseWord (v : W64) : W64 :=
  (v &&& ~~~(1#64 <<< 16)) ||| (if v &&& 0x1FC#64 = 0#64 then 0#64 else 1#64 <<< 16)

/-- The value of a system register for a team (R62 and the tables of R248). -/
def State.sysRead (s : State) (t : Team) (n : Nat) : W64 :=
  let core := t.core.toNat
  let c := s.core core
  let cl := s.cluster (core / 4)
  let d := s.die (core / 64)
  match n with
  | 0x000 => capsWord
  | 0x001 => 96
  | 0x002 => c.mgate
  | 0x010 => t.fpflags.setWidth 64
  | 0x011 => t.fkey.setWidth 64
  | 0x012 => if t.launch.det then t.retired else s.cycle
  | 0x013 => t.retired
  | 0x014 => c.tallow
  | 0x015 => detcauseWord t.detcause
  | 0x020 => c.trapbase
  | 0x021 => t.trapcause
  | 0x022 => t.trappc
  | 0x023 => t.trappass
  | 0x024 => t.trapinfo
  | 0x025 => t.traplane
  | 0x026 => t.trapmode
  | 0x027 => c.preemptlim
  | 0x028 => t.saveptr
  | 0x030 => t.asid
  | 0x048 => c.misload
  | 0x049 => c.miscomp
  | 0x04A => c.flushed
  | 0x04B => c.chkrecomp
  | 0x04C => c.logstall
  | 0x04D => c.brkcnt
  | 0x04E => c.margin
  | 0x050 => s.poolcfg core
  | 0x051 => t.txabpc
  | 0x052 => t.saveinfo
  | 0x080 => t.mxflags
  | 0x081 => cl.mxpass
  | 0x082 => cl.mxreplay
  | 0x083 => cl.mxwake
  | 0x084 => s.mxstat (core / 4)
  | 0x0C0 => d.llctl
  | 0x0C2 => d.llrefuse
  | 0x0C3 => d.llmigr
  | 0x0D4 => d.pwrWord
  | 0x0D5 => atBit d.uncorr.toNat 32 ||| atBit d.corr.toNat 0
  | _ =>
    if 0x016 ≤ n && n ≤ 0x01D then t.detlog.getD (n - 0x016) 0
    else if 0x040 ≤ n && n ≤ 0x047 then t.h.getD (n - 0x040) 0
    else if 0x0C8 ≤ n && n ≤ 0x0CF then d.coef.getD (n - 0x0C8) 0
    else if 0x0D0 ≤ n && n ≤ 0x0D3 then (d.rails.getD (n - 0x0D0) {}).word
    else 0

/-- A write of a team's own register; the others leave the team as it is. -/
def Team.sysWrite (t : Team) (n : Nat) (v : W64) : Team :=
  match n with
  | 0x010 => { t with fpflags := t.fpflags &&& v.setWidth 32 }
  | 0x011 => { t with fkey := v.setWidth 32 }
  | 0x013 => { t with retired := v }
  | 0x015 => { t with detcause := rsField (rwField t.detcause v (maskBits 63 32)) v 0x201FE }
  | 0x021 => { t with trapcause := v &&& maskBits 9 0 }
  | 0x022 => { t with trappc := v &&& maskBits 47 2 }
  | 0x023 => { t with trappass := v &&& maskBits 5 0 }
  | 0x024 => { t with trapinfo := v }
  | 0x025 => { t with traplane := v &&& maskBits 9 0 }
  | 0x026 => { t with trapmode := v &&& maskBits 21 0 }
  | 0x028 => { t with saveptr := v &&& maskBits 47 7 }
  | 0x030 => { t with asid := v &&& maskBits 15 0 }
  | 0x051 => { t with txabpc := v &&& maskBits 47 0 }
  | 0x080 => { t with mxflags := t.mxflags &&& v }
  | _ =>
    if 0x016 ≤ n && n ≤ 0x01D then { t with detlog := t.detlog.setIfInBounds (n - 0x016) (v &&& maskBits 63 2) }
    else if 0x040 ≤ n && n ≤ 0x047 then { t with h := t.h.setIfInBounds (n - 0x040) v }
    else t

/-- A write of a core's register. -/
def CoreRegs.sysWrite (c : CoreRegs) (n : Nat) (v : W64) : CoreRegs :=
  match n with
  | 0x002 => { c with mgate := v &&& (maskBits 31 31 ||| maskBits 19 0) }
  | 0x020 => { c with trapbase := v &&& maskBits 47 12 }
  | 0x027 => { c with preemptlim := v &&& maskBits 23 0 }
  | 0x048 => { c with misload := v }
  | 0x049 => { c with miscomp := v, windowBase := v - (c.miscomp - c.windowBase) }
  | 0x04A => { c with flushed := v }
  | 0x04B => { c with chkrecomp := v }
  | 0x04C => { c with logstall := v }
  | 0x04D => { c with brkcnt := v }
  | 0x04E => c.setMargin v
  | _ => c

/-- A write of a cluster's register. -/
def ClusterRegs.sysWrite (c : ClusterRegs) (n : Nat) (v : W64) : ClusterRegs :=
  match n with
  | 0x081 => { c with mxpass := v }
  | 0x082 => { c with mxreplay := v }
  | 0x083 => { c with mxwake := v }
  | _ => c

/-- A write of a die's register. -/
def DieRegs.sysWrite (d : DieRegs) (n : Nat) (v : W64) : DieRegs :=
  match n with
  | 0x0C0 => { d with minres := v.extractLsb' 16 16, hyst := v.extractLsb' 8 8, migen := v.getLsbD 0 }
  | 0x0C2 => { d with llrefuse := v }
  | 0x0C3 => { d with llmigr := v }
  | 0x0D4 => { d with hflim := max 100 (min 520 (v.toNat / 65536 % 65536)), capped := d.capped && v.getLsbD 0 }
  | 0x0D5 => { d with uncorr := v.extractLsb' 32 32, corr := v.setWidth 32 }
  | _ =>
    if 0x0C8 ≤ n && n ≤ 0x0CF then { d with coef := d.coef.setIfInBounds (n - 0x0C8) v }
    else if 0x0D0 ≤ n && n ≤ 0x0D3 then
      { d with rails := d.rails.setIfInBounds (n - 0x0D0) ((d.rails.getD (n - 0x0D0) {}).write v) }
    else d

/-- A write of a system register by a team, under its access codes (R6, R122, R248). -/
def State.sysWrite (s : State) (k : Nat) (t : Team) (n : Nat) (v : W64) : State :=
  let core := t.core.toNat
  if (0x081 ≤ n && n ≤ 0x083) then s.setCluster (core / 4) ((s.cluster (core / 4)).sysWrite n v)
  else if 0x0C0 ≤ n then s.setDie (core / 64) ((s.die (core / 64)).sysWrite n v)
  else if n == 0x002 || n == 0x020 || n == 0x027 || (0x048 ≤ n && n ≤ 0x04E) then
    (s.setCore core ((s.core core).sysWrite n v)).holdStep core
  else s.setTeam k (t.sysWrite n v)

/-- The DET event of a read of a system register (R373). -/
def sysReadEvent (n : Nat) : Option Nat :=
  if n == 0x012 then some 1
  else if n == 0x050 then some 2
  else if n == 0x014 || (0x048 ≤ n && n ≤ 0x04E) || (0x081 ≤ n && n ≤ 0x084) || n == 0x0C2 || n == 0x0C3 then some 4
  else none

/-- SYSR (R122): privilege, then the read. -/
def execSysr (f : SYR) (s : State) : Result :=
  let n := f.n.toNat
  issueChecked s (fun _ => [f.s.toNat]) (fun t => trapIf (!t.sys && !userReads n) (t.privilege (wordOf (.sysr f)))) fun k t =>
    let t' := match sysReadEvent n with
      | some c => t.detEvent c t.pc
      | none => t
    s.commit k ((t'.setS f.s.toNat (s.sysRead t n)).retire)

/-- SYSW (R122): privilege, the drain of R248 for ASID, then the write. -/
def execSysw (f : SYR) (s : State) : Result :=
  let n := f.n.toNat
  issueChecked s (fun _ => [f.s.toNat]) (fun t => trapIf (!t.sys && !userWrites n) (t.privilege (wordOf (.sysw f)))) fun k t =>
    if n == 0x030 && !t.drained then .next s
    else
      let t' := t.detIf (n == 0x013) 6
      .next ((s.sysWrite k t' n (t.sreg f.s.toNat)).modTeam k Team.retire)

end Sys2Proof.Machine
end

