-- ==== Sys2Proof/Machine/Thread.lean ====
section
/-! DEFINITION. Engine threads (spec/09 R226, spec/12 R270, R281, R286, R288, spec/13 R318, R323): operand addresses,
the checks of their extents, reads and stores. -/

namespace Sys2Proof.Machine

/-- An engine thread: for whom a command acts. -/
structure Thread where
  team : Nat
  gang : Nat
  group : Nat
  seq : Nat
  asid : BitVec 16
  user : Bool
  pc : Addr
  deriving DecidableEq, Repr

/-- Bytes that a command reads or writes: operand address, length, alignment of the address and of the array's stride,
permission (R281). -/
structure Extent where
  addr : Nat
  len : Nat
  align : Nat
  need : Need
  stride : Nat := 0
  deriving DecidableEq, Repr

/-- An operand address: with bit 63 an offset into the leader's scratchpad, else a global address (R270). -/
def State.threadLoc (s : State) (h : Thread) (a : Nat) : Loc :=
  if a.testBit 63 then .pool h.gang h.group (a % 2 ^ 63) else s.locOf (tagOf h.asid a) a

/-- The 128-byte lines of a range, as multiples of 128. -/
def rangeLines (a n : Nat) : List Nat :=
  if n = 0 then [] else (List.range ((a + n - 1) / 128 - a / 128 + 1)).map (a / 128 + ·)

/-- The global lines of some extents, rising. -/
def globalLines (xs : List Extent) : List Nat :=
  xs.foldl (fun l x => if x.addr.testBit 63 then l else (rangeLines x.addr x.len).foldl (fun l n => insertNat n l) l) []

/-- A scratchpad range lies under a closing window (R313). -/
def State.poolHeld (s : State) (gang group off n : Nat) : Bool :=
  match s.gang gang with
  | none => false
  | some g => g.windows.any fun w =>
      w.stat == .closing && w.group == group && decide (off < w.off + w.len) && decide (w.off < off + n)

/-! ### Checks (R281) -/

/-- How extents stand at a command's check. -/
inductive ExtStat where
  | ok
  | trap (cause : BitVec 8) (info : Nat)
  | wait (w : Option Walk)
  deriving DecidableEq, Repr

/-- The lines of an extent in ascending address: the first that refuses decides, at its first byte in the extent. -/
def State.linesStat (s : State) (k : Nat) (t : Team) (need : Need) (a : Nat) : List Nat → ExtStat
  | [] => .ok
  | l :: rest =>
    let va := max a (128 * l)
    match s.lineStat k t need (BitVec.ofNat 64 va) with
    | .trap c => .trap c va
    | .walk w => .wait (some w)
    | .held => .wait none
    | _ => s.linesStat k t need a rest

/-- One extent: misaligned by its address or its stride, bound, protection, fatal (R281). -/
def State.extentStat (s : State) (k : Nat) (t : Team) (x : Extent) : ExtStat :=
  let off := x.addr % 2 ^ 63
  if x.addr % x.align != 0 || x.stride % x.align != 0 then .trap 0x03 off
  else if x.addr.testBit 63 then
    if t.launch.scratch < off + x.len then .trap 0x10 (max off t.launch.scratch)
    else if s.poolHeld t.gangKey t.group off x.len then .wait none
    else .ok
  else s.linesStat k t x.need x.addr (rangeLines x.addr x.len)

/-- Extents in order: the first that does not pass decides. -/
def State.extentsStat (s : State) (k : Nat) (t : Team) : List Extent → ExtStat
  | [] => .ok
  | x :: rest =>
    match s.extentStat k t x with
    | .ok => s.extentsStat k t rest
    | r => r

/-- The thread of a command of a team. -/
def Team.thread (t : Team) (k : Nat) : Thread :=
  { team := k, gang := t.gangKey, group := t.group, seq := t.seq, asid := t.asid.setWidth 16, user := !t.sys, pc := t.pc }

/-- `n` bytes that a command reads at its check, in the view of the team's own loads (R226, R365). -/
def State.viewBytes (s : State) (t : Team) (a n : Nat) : List Byte :=
  (List.range n).map fun i => s.teamByte t (s.threadLoc (t.thread 0) (a + i))

def State.viewLE (s : State) (t : Team) (a n : Nat) : Nat := leNat (s.viewBytes t a n)

/-- The lines that some extents read and that meet poison, by their first byte for which `bad` holds: each is one poisoned
read (R286, R288). -/
def poisonedReads (bad : Nat → Bool) (xs : List Extent) : List Nat :=
  let note (m : Tab Nat) (x : Extent) (n : Nat) : Tab Nat :=
    if (Tab.find m n).isSome then m
    else
      let lo := max x.addr (128 * n)
      match ((List.range (min (x.addr + x.len) (128 * n + 128) - lo)).map (lo + ·)).find? bad with
      | none => m
      | some a => Tab.put m n a
  (xs.foldl (fun m x => (rangeLines x.addr x.len).foldl (note · x) m) []).map (·.2)

/-- The poisoned reads of a command at its check. -/
def State.viewPoison (s : State) (t : Team) (xs : List Extent) : List Nat :=
  poisonedReads (fun b => s.loadPoison t (s.threadLoc (t.thread 0) b)) xs

/-- A command of a DET grid reads at its check a byte last written outside the grid (R373). -/
def State.viewOutside (s : State) (t : Team) (xs : List Extent) : Bool :=
  xs.any fun x => (List.range x.len).any fun i => s.readsOutside t (s.threadLoc (t.thread 0) (x.addr + i)) 1

/-! ### Accesses (R286, R318) -/

/-- A store by scratchpad offset into a published window waits, as one through the window does: for the removal of peers' copies
(R447, R448) and for the holds of other teams (R242). -/
def State.poolKept (s : State) (team gang group off n : Nat) : Bool :=
  (rangeLines off n).any fun l =>
    let line : Loc := .pool gang group (128 * l)
    s.heldFrom team line || (s.globalOf line).any fun a => !(s.planesOf a.1 a.2).isEmpty

/-- Make every line of some extents reachable for a thread (R313, R446). -/
def State.threadReady (s : State) (h : Thread) (need : Need) (xs : List Extent) : Dests :=
  let kept (x : Extent) : Bool :=
    let off := x.addr % 2 ^ 63
    x.addr.testBit 63 &&
      (s.poolHeld h.gang h.group off x.len || (need == .store && s.poolKept h.team h.gang h.group off x.len))
  if xs.any kept then
    .wait (if need == .store then
      ((xs.filter kept).flatMap fun x => rangeLines (x.addr % 2 ^ 63) x.len).foldl
        (fun s l => s.invalidateLoc (.pool h.gang h.group (128 * l))) s
    else s)
  else s.destinations h.team h.asid need h.user [] (globalLines xs)

def State.threadBytes (s : State) (h : Thread) (a n : Nat) : List Byte :=
  (List.range n).map fun i => s.readLoc (s.threadLoc h (a + i))

def State.threadLE (s : State) (h : Thread) (a n : Nat) : Nat := leNat (s.threadBytes h a n)

/-- The lines of some extents pass to a thread: those whose CRC check between dies has failed twice (R435). -/
def State.crossReads (s : State) (h : Thread) (xs : List Extent) : List Nat × State :=
  (globalLines xs).foldl (fun a l =>
    let (bad, s) := a.2.crossing (s.dieOfTeam h.team) (tagOf h.asid (128 * l)) (128 * l)
    (if bad then l :: a.1 else a.1, s)) ([], s)

/-- The poisoned reads of a thread in some extents, of which the lines `crc` reached it poisoned. -/
def State.threadPoison (s : State) (h : Thread) (xs : List Extent) (crc : List Nat := []) : List Nat :=
  poisonedReads (fun b => s.poisonLoc (s.threadLoc h b) || !b.testBit 63 && crc.contains (b / 128)) xs

/-- The thread meets poison at some addresses: the flag, and a record for each (R288, R323, R407). -/
def State.meetPoison (s : State) (h : Thread) (at_ : List Nat) : State :=
  at_.foldl (fun s a => s.enginePoison h.team (a % 2 ^ 63) h.pc) s

/-- The lines of some extents. -/
def State.extentLocs (s : State) (h : Thread) (xs : List Extent) : List Loc :=
  xs.flatMap fun x => (rangeLines x.addr x.len).map fun l => s.threadLoc h (128 * l)

/-- Record a read of lines that a peer wrote (R459), and one of bytes last written outside a DET grid (R373, code 5). -/
def State.noteOutside (s : State) (h : Thread) (xs : List Extent) : State :=
  let s := s.noteLoads (some h.seq) (s.extentLocs h xs)
  match s.grid h.seq with
  | none => s
  | some g =>
    if g.packet.flags.getLsbD 0 && !g.outside.isEmpty &&
        (xs.any fun x => (List.range x.len).any fun i => g.outside.contains (s.threadLoc h (x.addr + i))) then
      s.modTeam h.team fun t => t.detEvent 5 h.pc
    else s

/-- A command reads some extents at its check: lines that a peer wrote are noted (R459), and the CRC checks of window lines
(R435). -/
def State.noteView (s : State) (k : Nat) (t : Team) (xs : List Extent) : State :=
  (s.crossLoads t (s.extentLocs (t.thread k) xs)).noteLoads (some t.seq) (s.extentLocs (t.thread k) xs)

/-- Poison every granule of the line of a location (R288). -/
def State.poisonLine (s : State) (line : Loc) : State :=
  (((s.setPoison line).setPoison (line.add 32)).setPoison (line.add 64)).setPoison (line.add 96)

/-- The bytes of a store by line: the line's first address, and places in it. -/
def lineParts (a : Nat) (bs : List Byte) : List (Nat × List (Nat × Byte)) :=
  (rangeLines a bs.length).map fun l =>
    (128 * l, (bs.zipIdx.filter fun e => (a + e.2) / 128 == l).map fun e => ((a + e.2) % 128, e.1))

/-- Store the parts of a thread's write: at the lines that stand here, and as a write to those at peers (R446). A part
whose CRC check between dies has failed twice leaves its granules poisoned (R435). -/
def State.storeParts (s : State) (h : Thread) (op : Nat) (peers : List (Nat × Page)) (poison : Bool) :
    List (Nat × List (Nat × Byte)) → State
  | [] => s
  | (a, bytes) :: rest =>
    let s :=
      match peers.find? fun p => !a.testBit 63 && p.1 == a / 128 with
      | some p =>
        s.send { dest := BitVec.ofNat 12 (p.2.pa / 2 ^ 52), va := a, cls := 2, team := some h.team, grid := some h.seq
                 op := op, what := .write bytes, poisoned := poison }
      | none =>
        let line := (s.threadLoc h a).line
        let (bad, s) :=
          if a.testBit 63 then (false, s)
          else s.crossing (s.dieOfTeam h.team) (tagOf h.asid a) a
        let s := s.performStore (some h.seq) line bytes
        if poison then s.poisonLine line else if bad then s.poisonBytes line bytes else s
    State.storeParts s h op peers poison rest

/-- A store of bytes at an operand address by a thread (R226, R288). -/
def State.threadStore (s : State) (h : Thread) (op : Nat) (peers : List (Nat × Page)) (poison : Bool) (a : Nat)
    (bs : List Byte) : State := s.storeParts h op peers poison (lineParts a bs)

end Sys2Proof.Machine
end

