-- ==== Sys2Proof/Machine/Matrix.lean ====
section
/-! DEFINITION. The matrix engine (spec/12): format blocks, the checks at issue, the reservation table and its grants,
passes and their verdict, the accumulator commands and drains. -/

namespace Sys2Proof.Machine

/-! ### Tiles (R269, R288, R294) -/

/-- The key of a tile half: core of the cluster and tile index. -/
def halfKey (core tile : Nat) : Nat := core * 2 ^ 16 + tile

/-- The follower of a pair (R268). -/
def followerOf (lead : BitVec 2) : Nat := (lead.toNat + 1) % 4

/-- The two halves that a command names. -/
def MEntry.halves (e : MEntry) : List Nat := [halfKey e.lead.toNat e.tile, halfKey (followerOf e.lead) e.tile]

/-- Whether two commands name a half in common. -/
def MEntry.shares (e f : MEntry) : Bool := e.halves.any (f.halves.contains ·)

/-- The key of element 0 of a half. -/
def tileBase (core tile : Nat) : Nat := core * 2 ^ 32 + tile * 4096

/-- The 64 × 64 elements of a half; one that nothing has written holds a free value (R269; log 5), which for a DET gang depends on
no core, so that the placement decides nothing (R372). -/
def Gang.half (g : Gang) (core tile : Nat) : List W32 :=
  let base := tileBase core tile
  let mine := g.tiles.filter fun e => base ≤ e.1 && e.1 < base + 4096
  (List.range 4096).map fun i => (Tab.find mine (base + i)).getD (Config.tileWord g.tileSeed (if g.tileAlike then 0 else core) (tile * 4096 + i))

/-- Write a half whole. -/
def Gang.setHalf (g : Gang) (core tile : Nat) (v : List W32) : Gang :=
  let base := tileBase core tile
  { g with tiles := (g.tiles.filter (·.1 < base)) ++ (List.range 4096).map (fun i => (base + i, v.getD i 0)) ++
      g.tiles.filter (base + 4096 ≤ ·.1) }

/-- Row `i` of a tile, 128 elements, from its halves. -/
def tileRow (lead follow : List W32) (i : Nat) : List W32 := (lead.drop (64 * i)).take 64 ++ (follow.drop (64 * i)).take 64

/-- Mark or clear both halves of a command's tile as poisoned (R288). -/
def Gang.markTile (g : Gang) (e : MEntry) (bad : Bool) : Gang :=
  { g with tilePoison := if bad then e.halves.foldl (fun l h => insertNat h l) g.tilePoison
                         else g.tilePoison.filter fun h => !e.halves.contains h }

def Gang.tileBad (g : Gang) (e : MEntry) : Bool := e.halves.any (g.tilePoison.contains ·)

/-- A command on a half that a failed pass has left is discarded (R294). -/
def State.discards (s : State) (e : MEntry) : Bool :=
  match s.gang e.gang with
  | none => false
  | some g => g.tileBlocked.any fun h => e.halves.contains h.1

/-! ### The format block (R272) -/

/-- An operand slot, from the little-endian fields of a block. -/
def readSlot (get : Nat → Nat → Nat) (at_ : Nat) : Slot :=
  { fmt := BitVec.ofNat 8 (get at_ 1), sstride := get (at_ + 2) 2, key := BitVec.ofNat 32 (get (at_ + 4) 4)
    row0 := get (at_ + 0x08) 4, col0 := get (at_ + 0x0C) 4, rowlen := get (at_ + 0x10) 4, stride := get (at_ + 0x14) 4
    codes := BitVec.ofNat 64 (get (at_ + 0x18) 8), bitmap := BitVec.ofNat 64 (get (at_ + 0x20) 8)
    scales := BitVec.ofNat 64 (get (at_ + 0x28) 8) }

def readBlock (get : Nat → Nat → Nat) : FBlock :=
  { a := readSlot get 0, b := readSlot get 0x30, acc := get 0x60 2, span := get 0x62 1, btrans := get 0x63 1
    koff := get 0x64 4, index := BitVec.ofNat 64 (get 0x68 8) }

/-- The format of a slot. -/
def Slot.nfmt (x : Slot) : NFmt := NFmt.ofCode x.fmt.toNat

/-- The pairings of R103. -/
def pairLegal (a b : Byte) : Bool := a.toNat < 4 && b.toNat < 4 && ((a.toNat < 2) == (b.toNat < 2))

def MKind.isPass (m : MKind) : Bool := m == .mma || m == .mmag
def MKind.hasBlock (m : MKind) : Bool := m.isPass || m == .mqnt
def MKind.path (m : MKind) : Fin 8 := if m.isPass || m == .mzero || m == .mldacc then pathMTX else pathDRN

/-- The lowest failing reason of check 2 (R281); 0 for none. -/
def fieldReason (m : MKind) (fb : FBlock) (tile tiles : Nat) : Nat :=
  if m.isPass && !pairLegal fb.a.fmt fb.b.fmt then 1
  else if m == .mqnt && 4 ≤ fb.a.fmt.toNat then 1
  else if m.isPass && fb.koff % 16 != 0 then 2
  else if tiles ≤ tile then 3
  else if m.isPass && (1 < fb.btrans || (fb.btrans == 0 && (fb.b.bitmap != 0 || fb.b.scales != 0))) then 4
  else if m == .mqnt && (fb.span == 0 || 31 < fb.span || fb.a.stride != 16 * fb.a.nfmt.bits || fb.a.sstride < 16) then 5
  else if m == .mmag && !(fb.index.getLsbD 63 && fb.a.codes.getLsbD 63) then 6
  else 0

/-! ### Operand addresses (R274, R93, R94) -/

/-- Address arithmetic modulo 2^64. -/
def wrap64 (a : Nat) : Nat := a % 2 ^ 64

/-- The codes of 64 K positions of stored row `r`. -/
def Slot.kCodes (x : Slot) (koff r : Nat) : Extent :=
  { addr := wrap64 (x.codes.toNat + r * x.stride + koff * x.nfmt.bits / 8), len := 8 * x.nfmt.bits, align := 1
    need := .load }

/-- The 128 codes of K row `e` of a K-major B. -/
def Slot.nCodes (x : Slot) (e : Nat) : Extent :=
  { addr := wrap64 (x.codes.toNat + e * x.stride), len := 16 * x.nfmt.bits, align := 1, need := .load }

/-- The bitmap bytes of a row, BW (R93). -/
def Slot.bitmapBytes (x : Slot) : Nat := 8 * (((x.stride * 8 / x.nfmt.bits + 15) / 16 + 63) / 64)

/-- The bitmap words of a row, up to the word of group `last` (R273). -/
def Slot.bitmapWords (x : Slot) (last r : Nat) : Extent :=
  { addr := wrap64 (x.bitmap.toNat + r * x.bitmapBytes), len := 8 * (last / 64 + 1), align := 8, need := .load }

/-- The place of the scale of group `g` in its row (R94); without a bitmap every group is a block (R273). -/
def scalePlace (bits : Option Nat) (g : Nat) : Nat :=
  match bits with
  | none => g
  | some b => popCount (g + 1) (b ||| 1) - 1

/-- The scale of group `g` of row `r`. -/
def Slot.scaleAt (x : Slot) (bits : Option Nat) (r g : Nat) : Extent :=
  { addr := wrap64 (x.scales.toNat + r * x.sstride + 2 * scalePlace bits g), len := 2, align := 2, need := .load }

/-- An operand has scales; it has a bitmap if they are named too (R273). -/
def Slot.scaled (x : Slot) : Bool := x.scales != 0
def Slot.hasBitmap (x : Slot) : Bool := x.scaled && x.bitmap != 0

/-- The extents of one array with the alignment of its stride (R281): a misaligned stride fails at the first extent that
it misaligns, and at the array's first extent if it misaligns none (DEDUCED, log 35). -/
def strided (stride : Nat) : List Extent → List Extent
  | [] => []
  | x :: rest => if (x :: rest).any (fun y => y.addr % y.align != 0) then x :: rest else { x with stride := stride } :: rest

/-- The scales of the four groups of a pass of each row, by the copies of the bitmap words. -/
def Slot.scaleExtents (x : Slot) (koff : Nat) (rows : List Nat) (maps : Tab Nat) : List Extent :=
  if x.scaled then
    strided x.sstride <| rows.zipIdx.flatMap fun e =>
      (List.range 4).map fun q =>
        x.scaleAt (if x.hasBitmap then some ((Tab.find maps e.2).getD 0) else none) e.1 (koff / 16 + q)
  else []

/-- The bitmap words of the rows of a pass. -/
def Slot.mapExtents (x : Slot) (koff : Nat) (rows : List Nat) : List Extent :=
  if x.hasBitmap then rows.map (x.bitmapWords (koff / 16 + 3)) else []

/-- Stored row `i` of A (R274, R276). -/
def MEntry.aRows (e : MEntry) : List Nat := if e.kind == .mmag then e.index else List.range 64

/-- The stored rows that B's scales follow. -/
def bRows : List Nat := List.range 128

/-- The codes of B (R274). -/
def FBlock.bCodes (fb : FBlock) : List Extent :=
  if fb.btrans == 0 then (List.range 64).map fun k => fb.b.nCodes (fb.koff + k)
  else bRows.map (fb.b.kCodes fb.koff)

/-- The index vector of MMAG (R276). -/
def FBlock.indexExtent (fb : FBlock) : Extent := { addr := fb.index.toNat, len := 256, align := 4, need := .load }

/-- The rows that an accumulator command or drain reads or writes at its address (R278, R279). -/
def MEntry.rowExtents (e : MEntry) : List Extent :=
  strided e.stride <| (List.range 64).map fun i =>
    { addr := wrap64 (e.addr.toNat + i * e.stride), len := if e.kind == .mdrainb then 256 else 512
      align := if e.kind == .mdrainb then 2 else 4, need := if e.kind == .mldacc then .load else .store }

/-- The arrays that MQNT writes: codes, bitmap, all eight scale slots (R280, R281). -/
def FBlock.quantExtents (fb : FBlock) : List Extent :=
  let x := fb.a
  (List.range 64).map (fun i =>
    { addr := wrap64 (x.codes.toNat + i * x.stride), len := 16 * x.nfmt.bits, align := 1, need := .store }) ++
  (if x.bitmap == 0 then [] else (List.range 64).map fun i =>
    { addr := wrap64 (x.bitmap.toNat + 8 * i), len := 8, align := 8, need := .store }) ++
  (if x.scales == 0 then [] else strided x.sstride <| (List.range 64).map fun i =>
    { addr := wrap64 (x.scales.toNat + i * x.sstride), len := 16, align := 2, need := .store })

/-! ### Checks at issue (R281) -/

/-- What the checks come to: the entry with the copies it read and where these lie, a trap, or a wait. -/
inductive MCheck where
  | ready (e : MEntry) (read : List Extent)
  | trap (cause : BitVec 8) (info : Nat)
  | wait (w : Option Walk)
  deriving DecidableEq, Repr

/-- TRAPINFO of cause 0x0A (R281). -/
def reservedInfo (m : MKind) (fb : FBlock) (reason : Nat) : Nat :=
  reason + (if m.hasBlock then 2 ^ 8 * fb.a.fmt.toNat + 2 ^ 16 * fb.b.fmt.toNat else 0)

/-- Read the bitmap words of a slot at the check. -/
def State.readMaps (s : State) (t : Team) (x : Slot) (koff : Nat) (rows : List Nat) : Tab Nat :=
  (x.mapExtents koff rows).zipIdx.map fun e => (e.2, s.viewLE t e.1.addr e.1.len)

/-- One slot of a pass: codes, bitmap words, then the scales that the words name; the copies it read. -/
def State.slotStat (s : State) (k : Nat) (t : Team) (x : Slot) (codes : List Extent) (koff : Nat) (rows : List Nat) :
    ExtStat × Tab Nat :=
  match s.extentsStat k t (codes ++ x.mapExtents koff rows) with
  | .ok =>
    let maps := s.readMaps t x koff rows
    (s.extentsStat k t (x.scaleExtents koff rows maps), maps)
  | r => (r, [])

/-- Check 3 of a pass: slot 0, slot 1, index (R281). The rows of MMAG are those of its index, which is read as soon as
its own bytes have passed: while they wait slot 0 is undecided and waits; where they trap slot 0 has no rows. -/
def State.passCheck (s : State) (k : Nat) (t : Team) (e : MEntry) : MCheck :=
  let fb := e.fb
  let ix := if e.kind == .mmag then s.extentStat k t fb.indexExtent else .ok
  let index := if e.kind == .mmag && ix == .ok then
      (List.range 64).map fun i => s.viewLE t (fb.index.toNat + 4 * i) 4 else []
  let e := { e with index := index }
  let (sa, ma) := match ix with
    | .ok => s.slotStat k t fb.a (e.aRows.map (fb.a.kCodes fb.koff)) fb.koff e.aRows
    | .wait w => (.wait w, [])
    | .trap .. => (.ok, [])
  let (sb, mb) := s.slotStat k t fb.b fb.bCodes fb.koff bRows
  match (if sa != .ok then sa else if sb != .ok then sb else ix) with
  | .trap c i => .trap c i
  | .wait w => .wait w
  | .ok =>
    .ready { e with bitmapA := ma, bitmapB := mb }
      ((if e.kind == .mmag then [fb.indexExtent] else []) ++ fb.a.mapExtents fb.koff e.aRows ++
        fb.b.mapExtents fb.koff bRows)

/-- The checks of a matrix command whose format block, if it has one, has been read (R281 checks 2 and 3). -/
def State.commandCheck (s : State) (k : Nat) (t : Team) (e : MEntry) (tile : Nat) : MCheck :=
  let reason := fieldReason e.kind e.fb tile (t.launch.acc / 16384)
  if reason != 0 then .trap 0x0A (reservedInfo e.kind e.fb reason)
  else
    let e := { e with tile := tile }
    if e.kind.isPass then s.passCheck k t e
    else
      let xs := match e.kind with
        | .mzero => []
        | .mqnt => e.fb.quantExtents
        | _ => e.rowExtents
      match s.extentsStat k t xs with
      | .trap c i => .trap c i
      | .wait w => .wait w
      | .ok => .ready e []

/-- The entry of a command of team `t` before its checks (R282). -/
def State.entryOf (s : State) (k : Nat) (t : Team) (m : MKind) : MEntry :=
  { op := t.opSeq, team := k, gang := t.gangKey, sys := t.sys, kind := m, lead := BitVec.ofNat 2 t.core.toNat
    group := t.group, tile := 0, priority := t.launch.priority, asid := t.asid.setWidth 16, pc := t.pc
    fork := (s.core t.core.toNat).entered }

/-- The checks of a matrix command at issue (R281). -/
def State.matrixCheck (s : State) (k : Nat) (t : Team) (m : MKind) (f : EN) : MCheck :=
  let e := s.entryOf k t m
  let s1 := t.sreg f.a.toNat
  if m.hasBlock then
    let off := s1.toNat % 2 ^ 63
    if off % 128 != 0 then .trap 0x03 off
    else if t.launch.scratch < off + 128 then .trap 0x10 off
    else if s.poolHeld t.gangKey t.group off 128 then .wait none
    else
      let fb := readBlock fun o n => s.viewLE t (2 ^ 63 + off + o) n
      match s.commandCheck k t { e with fb := fb } fb.acc with
      | .ready e xs => .ready e ({ addr := 2 ^ 63 + off, len := 128, align := 1, need := .load } :: xs)
      | r => r
  else
    s.commandCheck k t { e with addr := t.sreg f.b.toNat, stride := (t.sreg f.c.toNat).toNat % 2 ^ 32 } s1.toNat

/-! ### Issue (R271, R282) -/

/-- An entry of a cluster's table, by the name of its operation. -/
def State.mEntry (s : State) (cl op : Nat) : Option MEntry := (s.cluster cl).table.find? fun e => opName e.team e.op == op

def State.setMEntry (s : State) (cl : Nat) (e : MEntry) : State :=
  let c := s.cluster cl
  s.setCluster cl { c with table := c.table.map fun x => if x.team == e.team && x.op == e.op then e else x }

/-- Cores of the cluster whose sub-arrays or ports a command takes. -/
def MEntry.pair (e : MEntry) : List Nat := [e.lead.toNat, followerOf e.lead]

/-- A command has completed, and what its pass holds is free: the sub-arrays of a pass fall idle (R291). -/
def State.endEntry (s : State) (cl : Nat) (e : MEntry) : State :=
  let c := s.cluster cl
  let s := s.setCluster cl { c with
    table := c.table.map fun x => if x.team == e.team && x.op == e.op then { x with stat := .done } else x
    currents := c.currents.filter (· != .pass (opName e.team e.op)) }
  if e.holds then e.pair.foldl (fun s n => s.modCore (4 * cl + n) fun c => { c with idleAt := s.cycle }) s else s

/-- A command completes; its entry is freed once its counter is lowered (R282, R287). -/
def State.finishEntry (s : State) (cl : Nat) (e : MEntry) : State := (s.endEntry cl e).finishOp e.team e.op

/-- A checked command enters the table, or is discarded (R282, R294). -/
def State.enterTable (s : State) (cl : Nat) (e : MEntry) : State :=
  if s.discards e then s.finishOp e.team e.op
  else
    let c := s.cluster cl
    s.setCluster cl { c with table := c.table ++ [{ e with since := s.timeNs }] }

/-- A matrix command (R271): misuse in a transaction, a full counter, the checks, a full table; then it leaves the core,
or is held under DET (R365). What it reads at its check counts for codes 5 and 8 (R373), and for R459. Poison in its format block, index
or bitmaps marks the tile of its pass as poisoned operands do: R288 names operand bytes alone (DESIGN CHOICE, log 42). -/
def matrixOp (i : Instr) (f : EN) (m : MKind) (uses : List Nat) (s : State) : Result :=
  issueScalar s (fun _ => uses) fun k t =>
    if t.txstat.active then .next (s.raise k (t.misuse (wordOf i)))
    else if !t.pathRoom m.path then .next s
    else
      match s.matrixCheck k t m f with
      | .trap c info => .next ((s.setTeam k t).accessTrap k t (t.at c (BitVec.ofNat 64 info)))
      | .wait w => .next (s.askAll t w.toList [])
      | .ready e read =>
        let poison := s.viewPoison t read
        let cl := t.core.toNat / 4
        if !t.buffers && 16 ≤ (s.cluster cl).table.length then .next s
        else
          let e := { e with poisonSeen := !poison.isEmpty }
          let t' := ((t.startOp m.path).detIf t.sys 6).detIf (s.viewOutside t read) 5
          let s := ((s.noteView k t read).setTeam k t'.retire).meetPoison (t.thread k) poison
          .next (if t.buffers then s.hold t i (.matrix e) false else s.enterTable cl e)

def execMma (f : EN) (s : State) : Result := matrixOp (.mma f) f .mma [f.a.toNat] s
def execMmag (f : EN) (s : State) : Result := matrixOp (.mmag f) f .mmag [f.a.toNat] s
def execMzero (f : EN) (s : State) : Result := matrixOp (.mzero f) f .mzero [f.a.toNat] s
def execMqnt (f : EN) (s : State) : Result := matrixOp (.mqnt f) f .mqnt [f.a.toNat] s
def execMldacc (f : EN) (s : State) : Result := matrixOp (.mldacc f) f .mldacc [f.a.toNat, f.b.toNat, f.c.toNat] s
def execMdrain (f : EN) (s : State) : Result := matrixOp (.mdrain f) f .mdrain [f.a.toNat, f.b.toNat, f.c.toNat] s
def execMdraina (f : EN) (s : State) : Result := matrixOp (.mdraina f) f .mdraina [f.a.toNat, f.b.toNat, f.c.toNat] s
def execMdrainb (f : EN) (s : State) : Result := matrixOp (.mdrainb f) f .mdrainb [f.a.toNat, f.b.toNat, f.c.toNat] s

/-! ### Accumulator commands and drains act (R278 to R280, R288) -/

/-- The thread of an entry. -/
def MEntry.thread (e : MEntry) (t : Team) : Thread :=
  { team := e.team, gang := e.gang, group := e.group, seq := t.seq, asid := e.asid, user := !e.sys, pc := e.pc }

/-- Write a tile and its mark (R278). -/
def State.putTile (s : State) (e : MEntry) (lead follow : List W32) : State :=
  s.modGang e.gang fun g => (g.setHalf e.lead.toNat e.tile lead).setHalf (followerOf e.lead) e.tile follow

def State.markTile (s : State) (e : MEntry) (bad : Bool) : State := s.modGang e.gang fun g => g.markTile e bad

/-- The words of row `i` of an MLDACC source. -/
def State.loadRow (s : State) (h : Thread) (e : MEntry) (i : Nat) : List W32 :=
  (List.range 128).map fun j => BitVec.ofNat 32 (s.threadLE h (wrap64 (e.addr.toNat + i * e.stride) + 4 * j) 4)

def State.actMldacc (s : State) (h : Thread) (e : MEntry) : State :=
  let rows := (List.range 64).map (s.loadRow h e)
  let (crc, s) := s.crossReads h e.rowExtents
  let bad := s.threadPoison h e.rowExtents crc
  (((s.noteOutside h e.rowExtents).meetPoison h bad).putTile e (rows.flatMap (·.take 64)) (rows.flatMap (·.drop 64))).markTile e
    !bad.isEmpty

/-- The bytes and flags of a drained row (R279). -/
def drainRow (m : MKind) (row : List W32) : List Byte × Flags :=
  match m with
  | .mdrainb => (row.flatMap fun x => leBytes 2 (toBF16 x).1, (row.map fun x => (toBF16 x).2).foldl (· ||| ·) 0)
  | _ => (row.flatMap fun x => leBytes 4 x.toNat, 0)

/-- MDRAIN and MDRAINB store their rows, in ascending i (R279). -/
def State.actDrain (s : State) (h : Thread) (e : MEntry) (peers : List (Nat × Page)) (bad : Bool) (rows : List (List W32)) :
    State × Flags :=
  rows.zipIdx.foldl (fun a r =>
    let d := drainRow e.kind r.1
    (a.1.threadStore h e.op peers bad (wrap64 (e.addr.toNat + r.2 * e.stride)) d.1, a.2 ||| d.2)) (s, 0)

/-- One addend of MDRAINA at a word (R279, R288). -/
def State.addWord (s : State) (h : Thread) (peers : List (Nat × Page)) (bad : Bool) (a : Nat) (x : W32) : State × Flags :=
  if peers.any fun p => !a.testBit 63 && p.1 == a / 128 then (s.noteOwn h.seq (tagOf h.asid a) a 4, 0)
  else
    let old := s.threadLE h a 4
    let r := fmtF32.fadd .rne false old x.toNat
    let loc := s.threadLoc h a
    let s := s.performStore (some h.seq) loc.line (storeBytes loc 4 r.1)
    (if bad then s.poisonLine loc.line else s, r.2)

/-- MDRAINA: every addend at one instant, rows and columns in order; those at peers are applied there (R279, R446). -/
def State.actDrainAdd (s : State) (h : Thread) (e : MEntry) (peers : List (Nat × Page)) (bad : Bool)
    (rows : List (List W32)) : State × Flags :=
  let s := s.updatedAway peers
  let s := (s.noteOutside h e.rowExtents).meetPoison h (s.threadPoison h e.rowExtents)
  rows.zipIdx.foldl (fun a r =>
    r.1.zipIdx.foldl (fun b x =>
      let w := b.1.addWord h peers bad (wrap64 (e.addr.toNat + r.2 * e.stride) + 4 * x.2) x.1
      (w.1, b.2 ||| w.2)) a) (s, 0)

/-- MQNT stores each row's codes, bitmap and scales (R280). -/
def State.actQuant (s : State) (h : Thread) (e : MEntry) (peers : List (Nat × Page)) (bad : Bool)
    (rows : List (List W32)) : State × Flags :=
  let x := e.fb.a
  rows.zipIdx.foldl (fun a r =>
    let i := r.2
    let q := quantRow x.nfmt x.key e.fb.span ((x.row0 + i) * x.rowlen + x.col0) r.1
    let s := a.1.threadStore h e.op peers bad (wrap64 (x.codes.toNat + i * x.stride)) (packCodes x.nfmt q.codes)
    let s := if x.bitmap == 0 then s else
      s.threadStore h e.op peers bad (wrap64 (x.bitmap.toNat + 8 * i))
        (leBytes 8 (q.bounds.foldr (fun b n => 2 * n + (if b then 1 else 0)) 0))
    let s := if x.scales == 0 then s else
      s.threadStore h e.op peers bad (wrap64 (x.scales.toNat + i * x.sstride)) (q.scales.flatMap fun v => leBytes 2 v)
    (s, a.2 ||| q.flags)) (s, 0)

/-- A command whose access is refused after its issue does nothing; it has completed, and the refusal is reported (log 41). -/
def State.refuseEntry (s : State) (cl : Nat) (e : MEntry) (cause : BitVec 8) (va : Nat) : State :=
  (s.finishEntry cl e).reportRefused e.team e.pc e.sys cause va

/-- A granted command that is no pass acts whole (R278 to R280): its entry then holds its flags and awaits completion. Where
a line must wait, the entry goes on waiting. An MDRAINA is performed as a reduction is (`performRed`): its parts at peers leave
first, its instant is the acceptance of the last of them, and one whose CRC check between dies has failed twice, or that has failed
at a peer, is performed on no byte (R219, R435, R445). -/
def State.actCommand (s : State) (cl : Nat) (t : Team) (e : MEntry) : State :=
  let h := e.thread t
  match s.gang e.gang with
  | none => s
  | some g =>
    let bad := g.tileBad e
    let lead := g.half e.lead.toNat e.tile
    let follow := g.half (followerOf e.lead) e.tile
    let rows := (List.range 64).map (tileRow lead follow)
    let done (r : State × Flags) : State := r.1.setMEntry cl { e with stat := .acted, flags := e.flags ||| r.2 }
    let whole (need : Need) (xs : List Extent) (f : State → List (Nat × Page) → State × Flags) : State :=
      match s.threadReady h need xs with
      | .ready s ps => done (f s ps)
      | .wait s => s
      | .refused c va => s.refuseEntry cl e c va
    match e.kind with
    | .mzero => done ((s.putTile e (List.replicate 4096 0) (List.replicate 4096 0)).markTile e false, 0)
    | .mldacc => whole .load e.rowExtents fun s _ => (s.actMldacc h e, 0)
    | .mqnt => whole .store e.fb.quantExtents fun s ps => s.actQuant h e ps bad rows
    | .mdraina =>
      match s.threadReady h .store e.rowExtents with
      | .wait s => s
      | .refused c va => s.refuseEntry cl e c va
      | .ready s ps =>
        if e.stat == .sent then done (if e.failed then (s, 0) else s.actDrainAdd h e ps bad rows)
        else
          let here := (globalLines e.rowExtents).filter fun l => !(ps.any (·.1 == l))
          let (crc, s) := s.crossingLines (cl / 16) h.asid here
          if crc then done (s.flagPoison (some e.team), 0)
          else if ps.isEmpty then done (s.actDrainAdd h e ps bad rows)
          else (s.sendUpdate h.team e.op h.seq bad ps).setMEntry cl { e with stat := .sent }
    | _ => whole .store e.rowExtents fun s ps => s.actDrain h e ps bad rows

/-! ### Grant (R282 to R285, R290, R291) -/

/-- Two commands need the same sub-array, or the same accumulator port. -/
def MEntry.contends (e f : MEntry) : Bool := e.kind.isPass == f.kind.isPass && e.pair.any (f.pair.contains ·)

/-- The oldest starving entry (R284). -/
def starvingIn (l : List MEntry) : Option MEntry := l.find? fun e => e.stat == .waiting && e.starving

/-- A Taper array that is bound to no pass (R268). -/
def freeTaper (l : List MEntry) : Option Nat := [0, 1].find? fun n => !l.any fun e => e.holds && e.taper == n

/-- The core of an entry's team. -/
def State.coreOfEntry (s : State) (e : MEntry) : Nat := ((s.team e.team).map (·.core.toNat)).getD 0

/-- Eligible but for the current (R283, R284), given the entries that are older. -/
def State.eligible (s : State) (l older : List MEntry) (e : MEntry) : Bool :=
  e.stat == .waiting && s.forkDone (s.coreOfEntry e) e.team e.fork e.op &&
    !(older.any fun o => o.stat != .done && o.gang == e.gang && o.shares e) &&
    (!e.kind.isPass || ((freeTaper l).isSome && !(l.any fun o => o.holds && o.pair.any (e.pair.contains ·)) &&
      (e.kind != .mmag || e.gathered))) &&
    (match starvingIn older with
      | none => true
      | some o => !o.contends e)

/-- The entries that can be granted, in table order. -/
def State.grantable (s : State) (l : List MEntry) : List MEntry → List MEntry → List MEntry
  | _, [] => []
  | older, e :: rest =>
    let r := s.grantable l (older ++ [e]) rest
    if s.eligible l older e && (!e.kind.isPass || e.current) then e :: r else r

/-- Entries in the order of their grants: highest priority first, the oldest first among equals (R283). -/
def insertGrant (e : MEntry) : List MEntry → List MEntry
  | [] => [e]
  | f :: rest => if e.priority < f.priority then f :: insertGrant e rest else e :: f :: rest

def grantOrder (l : List MEntry) : List MEntry := l.foldr insertGrant []

/-- A pass is granted: its Taper array is bound, gated sub-arrays are woken (R268, R290, R291). -/
def State.grantPass (s : State) (cl : Nat) (e : MEntry) : State :=
  let c := s.cluster cl
  let gated := (e.pair.filter fun n => !(s.core (4 * cl + n)).awake).length
  let s := s.setCluster cl { c with mxpass := c.mxpass + 1, mxwake := c.mxwake + BitVec.ofNat 64 gated }
  s.setMEntry cl { e with stat := if gated == 0 then .running else .waking, taper := (freeTaper c.table).getD 0 }

/-- Grant the first entry of `l` that need not wait for a line: others may be granted before one that must (R285). -/
def State.grantFirst (s : State) (cl : Nat) : List MEntry → State
  | [] => s
  | e :: rest =>
    if e.kind.isPass then s.grantPass cl e
    else
      match s.team e.team with
      | none => s
      | some t =>
        let s := s.actCommand cl t e
        if ((s.mEntry cl (opName e.team e.op)).map (·.stat)) == some .waiting then s.grantFirst cl rest else s

/-- RESERVATION_GRANT: the arbiter of the cluster grants its next eligible entry (R283). -/
def execReservationGrant (cluster : BitVec 6) (s : State) : Result :=
  let cl := cluster.toNat
  let l := (s.cluster cl).table
  .next (s.grantFirst cl (grantOrder (s.grantable l [] l)))

/-- STARVATION: an entry that has waited for 2 µs since it entered the table is starving (R284). -/
def execStarvation (cluster : BitVec 6) (op : Nat) (s : State) : Result :=
  match s.mEntry cluster.toNat op with
  | none => .next s
  | some e => .next (if e.stat == .waiting && decide (e.since + 2000 ≤ s.timeNs) then s.setMEntry cluster.toNat { e with starving := true } else s)

/-- GATHER_DONE: the rows of an MMAG lie in its latch, row i at 64 i (R277). -/
def execGatherDone (cluster : BitVec 6) (op : Nat) (s : State) : Result :=
  match s.mEntry cluster.toNat op with
  | none => .next s
  | some e =>
    match s.team e.team with
    | none => .next s
    | some t =>
      let h := e.thread t
      let xs := e.aRows.map (e.fb.a.kCodes e.fb.koff)
      if e.kind != .mmag || e.gathered || e.stat != .waiting || !s.forkDone t.core.toNat e.team e.fork e.op then .next s
      else
        match s.threadReady h .load xs with
        | .wait s => .next s
        | .refused c va => .next (s.refuseEntry cluster.toNat e c va)
        | .ready s _ =>
          let latch := xs.zipIdx.foldl (fun m x => Memory.writeBytes m (64 * x.2) (s.threadBytes h x.1.addr x.1.len)) []
          let (crc, s) := s.crossReads h xs
          let bad := s.threadPoison h xs crc
          let e := { e with latch := latch, gathered := true, poisonSeen := e.poisonSeen || !bad.isEmpty }
          .next (((s.noteOutside h xs).meetPoison h bad).setMEntry cluster.toNat e)

/-- SUBARRAY_WAKE: both sub-arrays of a granted pass are powered and the pass starts (R291). -/
def execSubarrayWake (cluster : BitVec 6) (op : Nat) (s : State) : Result :=
  match s.mEntry cluster.toNat op with
  | none => .next s
  | some e =>
    if e.stat != .waking then .next s
    else
      .next ((e.pair.foldl (fun s n => s.modCore (4 * cluster.toNat + n) fun c => { c with awake := true }) s).setMEntry
        cluster.toNat { e with stat := .running })

/-- SUBARRAY_GATING: a sub-array that has been idle for MGATE.DELAY ns, at the nominal 4 cycles each, is gated, unless
MGATE.NEVER (R291). -/
def execSubarrayGating (core : BitVec 8) (s : State) : Result :=
  let n := core.toNat
  let c := s.core n
  if c.mgate.getLsbD 31 || (s.cluster (n / 4)).table.any (fun e => e.holds && e.pair.contains (n % 4)) ||
      (s.cycle - c.idleAt).toNat < 4 * (c.mgate.toNat % 2 ^ 20) then
    .next s
  else .next (s.modCore n fun c => { c with awake := false })

/-! ### The verdict (R292 to R295) -/

/-- Four groups of sixteen codes with their frame indices, and their scales. -/
def fourGroups (f : NFmt) (key : W32) (codes : List (Nat × Nat)) (scale : Nat → FVal) : List (PortGroup × FVal) :=
  (List.range 4).map fun q => (portGroup f key ((codes.drop (16 * q)).take 16), scale q)

/-- The scales of a row of a slot; 1 for an unscaled operand (R273). -/
def State.rowScale (s : State) (h : Thread) (x : Slot) (koff : Nat) (maps : Tab Nat) (n r q : Nat) : FVal :=
  if x.scaled then
    let a := x.scaleAt (if x.hasBitmap then some ((Tab.find maps n).getD 0) else none) r (koff / 16 + q)
    scaleVal (s.threadLE h a.addr 2)
  else .fin false 1 0

/-- The 64 codes of K positions of stored row `r`, with frame indices (R274). -/
def Slot.kRow (x : Slot) (koff r : Nat) (bytes : List Byte) : List (Nat × Nat) :=
  (unpackCodes x.nfmt bytes).zipIdx.map fun c => (c.1, ((x.row0 + r) * x.rowlen + x.col0 + koff + c.2) % 2 ^ 32)

/-- The operands of A (R274, R277). -/
def State.passA (s : State) (h : Thread) (e : MEntry) : List (List (PortGroup × FVal)) :=
  let x := e.fb.a
  e.aRows.zipIdx.map fun r =>
    let at_ := x.kCodes e.fb.koff r.1
    let bytes := if e.kind == .mmag then Memory.readBytes e.latch (64 * r.2) at_.len else s.threadBytes h at_.addr at_.len
    fourGroups x.nfmt x.key (x.kRow e.fb.koff r.1 bytes) (s.rowScale h x e.fb.koff e.bitmapA r.2 r.1)

/-- The operands of B, by column (R274). -/
def State.passB (s : State) (h : Thread) (e : MEntry) : List (List (PortGroup × FVal)) :=
  let x := e.fb.b
  let rows := e.fb.bCodes.map fun at_ => s.threadBytes h at_.addr at_.len
  if e.fb.btrans == 0 then
    let codes := rows.map (unpackCodes x.nfmt)
    bRows.map fun j =>
      fourGroups x.nfmt x.key
        (codes.zipIdx.map fun c => (c.1.getD j 0, ((x.row0 + e.fb.koff + c.2) * x.rowlen + x.col0 + j) % 2 ^ 32))
        fun _ => .fin false 1 0
  else
    rows.zipIdx.map fun r =>
      fourGroups x.nfmt x.key (x.kRow e.fb.koff r.2 r.1) (s.rowScale h x e.fb.koff e.bitmapB r.2 r.2)

/-- What an attempt of a pass reads (R286): codes and scales; the rows of MMAG were gathered. -/
def MEntry.reads (e : MEntry) : List Extent :=
  (if e.kind == .mmag then [] else e.aRows.map (e.fb.a.kCodes e.fb.koff)) ++
    e.fb.a.scaleExtents e.fb.koff e.aRows e.bitmapA ++ e.fb.bCodes ++ e.fb.b.scaleExtents e.fb.koff bRows e.bitmapB

/-- The pass's checked results are committed to both halves (R287, R289, R293). -/
def State.commitPass (s : State) (cl : Nat) (e : MEntry) (p : PassData) (claims : List SumError) : State :=
  match s.gang e.gang with
  | none => s
  | some g =>
    let (lead, f0) := p.half claims 0 (g.half e.lead.toNat e.tile)
    let (follow, f1) := p.half claims 64 (g.half (followerOf e.lead) e.tile)
    let s := s.putTile e lead follow
    let s := (s.modTeam e.team fun t => t.mxOr (f0 ||| f1)).finishEntry cl e
    if e.replays == 0 then s
    else
      s.beacon (srcCluster cl) 0x20 1
        [(16, 4 * cl + e.lead.toNat), (24, e.tile), (32, e.replays), (40, e.firstFail)]

/-- Later entries of the gang on a half of the failed tile are discarded (R294). -/
def State.discardLater (s : State) (cl : Nat) (e : MEntry) : List MEntry → State
  | [] => s
  | x :: rest =>
    let s := if x.stat != .done && x.gang == e.gang && x.shares e then s.finishEntry cl x else s
    State.discardLater s cl e rest

/-- The entries of a table behind one. -/
def laterThan (e : MEntry) (l : List MEntry) : List MEntry := (l.dropWhile fun x => !(x.team == e.team && x.op == e.op)).tail

/-- A pass fails its third attempt (R294). -/
def State.failPass (s : State) (cl : Nat) (e : MEntry) (t : Team) (kind : Nat) : State :=
  let s := s.discardLater cl e (laterThan e (s.cluster cl).table)
  let s := s.markTile e true
  let s := s.modGang e.gang fun g =>
    { g with tileBlocked := e.halves.foldl (fun l h => Tab.put l h e.team) g.tileBlocked }
  let s := s.finishEntry cl e
  let s := s.beacon (srcCluster cl) 0x21 2
    [(16, 4 * cl + e.lead.toNat), (24, e.tile), (32, kind), (40, e.pc.toNat), (48, t.launch.number.toNat)]
  s.report e.team
    { cause := 0x0E, pc := e.pc, info := BitVec.ofNat 64 (6 + kind * 2 ^ 8 + e.pc.toNat * 2 ^ 16), isReport := true } e.sys

/-- TAPER_VERDICT: an attempt of a pass has ended, with sums claimed as `claims` says and a residue checker that fired
or not; its results are committed, or it is replayed, or fails (R286, R288, R292 to R294). Record 0x20 names group and row
0 where the first attempt failed by a residue checker alone, and a third attempt that fails both ways reports kind 3: R294
and R295 do not say (DESIGN CHOICE, log 97). -/
def execTaperVerdict (cluster : BitVec 6) (op : Nat) (claims : List SumError) (residueFired : Bool) (s : State) : Result :=
  let cl := cluster.toNat
  match s.mEntry cl op with
  | none => .next s
  | some e =>
    match s.team e.team with
    | none => .next s
    | some t =>
      let h := e.thread t
      if !e.kind.isPass || e.stat != .running then .next s
      else
        match s.threadReady h .load e.reads with
        | .wait s => .next s
        | .refused c va => .next (s.refuseEntry cl e c va)
        | .ready s _ =>
          let p : PassData := { a := s.passA h e, b := s.passB h e }
          let (crc, s) := s.crossReads h e.reads
          let bad := s.threadPoison h e.reads crc
          let s := (s.noteOutside h e.reads).meetPoison h bad
          let s := if !bad.isEmpty || e.poisonSeen then s.markTile e true else s
          let fail := p.firstFailing claims
          if fail.isNone && !residueFired then .next (s.commitPass cl e p claims)
          else if e.replays < 2 then
            let c := s.cluster cl
            let first := if e.replays == 0 then fail.getD 0 else e.firstFail
            .next ((s.setCluster cl { c with mxreplay := c.mxreplay + 1 }).setMEntry cl
              { e with replays := e.replays + 1, firstFail := first })
          else .next (s.failPass cl e t (if fail.isSome then 3 else 1))

/-- A command that has acted completes once its stores are accepted (R287): its flags are reported. An MDRAINA whose parts at peers
have been accepted adds its words here first (R279). -/
def State.completeMEntry (s : State) (cl : Nat) (e : MEntry) : State :=
  if s.outPending e.team e.op then s
  else if e.stat == .sent then
    match s.team e.team with
    | none => s
    | some t => s.actCommand cl t e
  else if e.stat == .acted then (s.modTeam e.team fun t => t.mxOr e.flags).finishEntry cl e
  else s

end Sys2Proof.Machine
end

