-- ==== Sys2Proof/Machine/Copy.lean ====
section
/-! DEFINITION. The copy engine (spec/13 R316 to R324) and the completion of engine commands (R287, R324, R168). -/

namespace Sys2Proof.Machine

/-! ### Descriptors (R317, R318) -/

/-- A frame of a descriptor. -/
def readFrame (get : Nat → Nat → Nat) (fmt at_ : Nat) : CFrame :=
  { present := (get fmt 1).testBit 7, fmt := BitVec.ofNat 2 (get fmt 1), key := BitVec.ofNat 32 (get at_ 4)
    row0 := get (at_ + 4) 4, col0 := get (at_ + 8) 4, rowlen := get (at_ + 12) 4 }

/-- A descriptor from its little-endian fields (R317). -/
def readDesc (get : Nat → Nat → Nat) : CDesc :=
  let dims := get 0x01 1 % 8 + 1
  let strides (at_ : Nat) : List Int := (List.range dims).map fun n => (BitVec.ofNat 64 (get (at_ + 8 * n) 8)).toInt
  { elem := get 0x00 1 % 4, dims := dims, ext := (List.range dims).map fun n => get (0x08 + 4 * n) 4
    sstride := strides 0x28, dstride := strides 0x68, sframe := readFrame get 0xA8 0xAC, dframe := readFrame get 0xA9 0xBC }

/-- The number of elements. -/
def CDesc.total (d : CDesc) : Nat := d.ext.foldl (· * ·) 1

/-- Bytes of an element of CPY and CPYP. -/
def CDesc.size (d : CDesc) : Nat := 2 ^ d.elem

/-- The number of view rows (R320). -/
def CDesc.rows (d : CDesc) : Nat := d.ext.tail.foldl (· * ·) 1

/-- The index tuple of an element, n0 fastest (R318). -/
def tupleOf : Nat → List Nat → List Nat
  | _, [] => []
  | n, e :: rest => n % e :: tupleOf (n / e) rest

/-- Σ nk × STRIDEk. -/
def strideSum (tuple : List Nat) (strides : List Int) : Int :=
  (List.zipWith (fun (n : Nat) (x : Int) => (n : Int) * x) tuple strides).foldl (· + ·) 0

/-- FrameIndex of element `n` with u = 1 and v = 0 (R318, R321). -/
def frameIndex (f : CFrame) (d : CDesc) (n : Nat) : Nat :=
  let e0 := d.ext.headD 1
  ((f.row0 + n / e0) * f.rowlen + f.col0 + n % e0) % 2 ^ 32

/-- The format of a frame. -/
def CFrame.nfmt (f : CFrame) : NFmt := NFmt.ofCode f.fmt.toNat

/-! ### Checks at issue (R320, R321, R323) -/

/-- The frame test: the failing reason, or 0 (R320, R321); a copy without elements passes it (R318). -/
def frameReason (m : CKind) (d : CDesc) : Nat :=
  let x := d.sframe
  let y := d.dframe
  if d.ext.any (· == 0) then 0
  else if m == .cpyq then (if x.present && y.present then 0 else 1)
  else if x.present != y.present then 1
  else if !x.present then 0
  else if x.fmt != y.fmt then 2
  else if x.key != y.key then 3
  else if (x.row0 * x.rowlen + x.col0) % 2 ^ 32 != (y.row0 * y.rowlen + y.col0) % 2 ^ 32 ||
      (1 < d.rows && x.rowlen != y.rowlen) then 4
  else 0

/-- The first misaligned value of a side: its base, then its strides of extents above 1 (R323 step 4). -/
def misaligned (size : Nat) (base : Nat) (ext : List Nat) (strides : List Int) : Option Nat :=
  if base % size != 0 then some base
  else ((ext.zip strides).find? fun e => 1 < e.1 && e.2 % (size : Int) != 0).map fun e => (BitVec.ofInt 64 e.2).toNat

/-- The lowest or the highest byte of a scratchpad side that lies outside, the lowest first (R323 step 5); `last` is the
number of bytes of a row's dimension 0, or of an element. -/
def outOfPool (off : Int) (ext : List Nat) (strides : List Int) (last scratch : Nat) : Option Nat :=
  let ends := List.zipWith (fun (e : Nat) (x : Int) => ((e : Int) - 1) * x) ext strides
  let lo := off + (ends.map (min 0 ·)).foldl (· + ·) 0
  let hi := off + (ends.map (max 0 ·)).foldl (· + ·) 0 + last - 1
  if lo < 0 || (scratch : Int) ≤ lo then some (BitVec.ofInt 64 lo).toNat
  else if hi < 0 || (scratch : Int) ≤ hi then some (BitVec.ofInt 64 hi).toNat
  else none

/-- The scratchpad bound of one side of a copy; a copy without elements addresses no byte. -/
def sideOut (m : CKind) (d : CDesc) (base scratch : Nat) (strides : List Int) (f : CFrame) : Option Nat :=
  if !base.testBit 63 then none
  else
    let off : Int := (base % 2 ^ 63 : Nat)
    if d.ext.any (· == 0) then none
    else if m == .cpyq then outOfPool off d.ext.tail strides.tail ((d.ext.headD 1 * f.nfmt.bits + 7) / 8) scratch
    else outOfPool off d.ext strides d.size scratch

/-- The checks of a copy command whose descriptor has been read (R323 steps 2 to 5): cause and TRAPINFO. -/
def copyFail (m : CKind) (d : CDesc) (src dst scratch : Nat) : Option (BitVec 8 × Nat) :=
  let align : Option Nat :=
    if m == .cpyq then none
    else (misaligned d.size src d.ext d.sstride).or (misaligned d.size dst d.ext d.dstride)
  if frameReason m d != 0 then some (0x0B, frameReason m d)
  else if m == .cpyp && dst.testBit 63 then some (0x05, dst % 2 ^ 48 + 4 * 2 ^ 48)
  else
    match align with
    | some v => some (0x03, v)
    | none =>
      match (sideOut m d src scratch d.sstride d.sframe).or (sideOut m d dst scratch d.dstride d.dframe) with
      | some v => some (0x10, v)
      | none => none

/-- How the descriptor stands (R323 step 1): TRAPINFO is its offset or its address. -/
def State.descStat (s : State) (k : Nat) (t : Team) (a : Nat) : ExtStat :=
  match s.extentStat k t { addr := a, len := 256, align := 256, need := .load } with
  | .trap c _ => .trap c (a % (if a.testBit 63 then 2 ^ 63 else 2 ^ 64))
  | r => r

/-- A copy command (R316): misuse in a transaction, a full counter, the checks, a full queue; then it leaves the core, or
is held under DET (R365), where a CPYP counts for code 5 in its slot (R373). -/
def copyOp (i : Instr) (f : EN) (m : CKind) (s : State) : Result :=
  issueScalar s (fun _ => [f.a.toNat, f.b.toNat, f.c.toNat]) fun k t =>
    let a := (t.sreg f.a.toNat).toNat
    let src := t.sreg f.b.toNat
    let dst := t.sreg f.c.toNat
    if t.txstat.active then .next (s.raise k (t.misuse (wordOf i)))
    else if !t.pathRoom pathCPY then .next s
    else
      match s.descStat k t a with
      | .trap c info => .next ((s.setTeam k t).accessTrap k t (t.at c (BitVec.ofNat 64 info)))
      | .wait w => .next (s.askAll t w.toList [])
      | .ok =>
        let d := readDesc fun o n => s.viewLE t (a + o) n
        match copyFail m d src.toNat dst.toNat t.launch.scratch with
        | some (c, info) => .next ((s.setTeam k t).accessTrap k t (t.at c (BitVec.ofNat 64 info)))
        | none =>
          let cl := t.core.toNat / 4
          if !t.buffers && 16 ≤ (s.cluster cl).copies.length then .next s
          else
            let c : CopyCmd :=
              { op := t.opSeq, team := k, gang := t.gangKey, group := t.group, sys := t.sys, user := !t.sys, kind := m
                src := src, dst := dst, desc := d, asid := t.asid.setWidth 16, pc := t.pc
                fork := (s.core t.core.toNat).entered }
            let read : List Extent := [{ addr := a, len := 256, align := 1, need := .load }]
            let t' := (((t.startOp pathCPY).detIf t.sys 6).detIf (s.viewOutside t read || (m == .cpyp && !t.buffers)) 5).retire
            let s := ((s.noteView k t read).setTeam k t').meetPoison (t.thread k) (s.viewPoison t read)
            if t.buffers then .next (s.hold t i (.copy c) false)
            else
              let r := s.cluster cl
              .next (s.setCluster cl { r with copies := r.copies ++ [c] })

def execCpy (f : EN) (s : State) : Result := copyOp (.cpy f) f .cpy s
def execCpyq (f : EN) (s : State) : Result := copyOp (.cpyq f) f .cpyq s
def execCpyp (f : EN) (s : State) : Result := copyOp (.cpyp f) f .cpyp s

/-! ### Performance (R318, R319, R321 to R323) -/

/-- How a byte of a copy stands. -/
inductive CopyAt where
  | here (s : State) (loc : Loc)
  | peer (s : State) (p : Page)
  | wait (s : State)
  | stop (cause : BitVec 8)
  deriving DecidableEq, Repr

/-- The copy's access to a page has been declared fatal (R392). -/
def State.copyFatal (s : State) (c : CopyCmd) (cl line : Nat) (store : Bool) : Bool :=
  s.relia.fatal.any fun f =>
    f.source.toNat == srcCluster cl && f.team == some c.team && f.line / 512 == line / 512 && f.write == store

/-- Reach a byte of a side: `local_` names the scratchpad offset `a`, otherwise `a` is a global address (R323). -/
def State.copyReach (s : State) (c : CopyCmd) (cl : Nat) (local_ : Bool) (need : Need) (a : Nat) : CopyAt :=
  if local_ then
    if s.poolHeld c.gang c.group a 1 then .wait s
    else if need == .store && s.poolKept c.team c.gang c.group a 1 then .wait (s.invalidateLoc (.pool c.gang c.group a))
    else .here s (.pool c.gang c.group a)
  else if 2 ^ 48 ≤ a then .stop 0x05
  else
    let tag := tagOf c.asid a
    let tlb := if c.kind == .cpyp && need == .store then egressTlb else vaultTlb tag a
    if need == .store && s.heldAgainst (some c.team) tag a then .wait s
    else
      match s.reach tlb tag a need c.user false with
      | .ready s' loc =>
        if need == .store then (if (s'.planesOf tag a).isEmpty then .here s' loc else .wait (s'.invalidate tag a))
        else .here s' loc
      | .peer s p => if need == .load then .wait (s.requestLine tag a p 2 (some c.team) ((s.team c.team).map (·.seq))) else .peer s p
      | .held => .wait s
      | .protect => .stop 0x05
      | .fault _ =>
        if s.copyFatal c cl (a / 128) (need == .store) then .stop 0x04
        else
          .wait (s.askWalk { tag := tag, line := a / 128, write := need == .store, fetch := false, user := c.user
                             source := BitVec.ofNat 16 (srcCluster cl), team := some c.team
                             grid := (s.team c.team).map (·.seq), egress := c.kind == .cpyp && need == .store })

/-- Whether a side is in the scratchpad, and the offset or address that an index sum gives (R318). -/
def sideAddr (base : W64) (sum : Int) : Bool × Nat :=
  if base.getLsbD 63 then (true, ((base.toNat % 2 ^ 63 : Nat) + sum).toNat)
  else (false, (((base.toNat : Int) + sum) % 2 ^ 64).toNat)

/-- A byte of the copy lies in a window of a gang of a non-DET grid (R373, code 5). -/
def State.foreignWindow (s : State) (c : CopyCmd) (local_ : Bool) (a : Nat) : Bool :=
  !local_ && match s.findWindow (tagOf c.asid a) a with
    | none => false
    | some (g, _) =>
      match (s.gang g).bind fun gg => s.grid gg.seq with
      | none => false
      | some q => !q.packet.flags.getLsbD 0

/-- The events of one element (R288, R323, R373, R407, R459): MXFLAGS.POISON at each poisoned element; code 5, code 8 and the poison
record once for the command. -/
def State.copyEvents (s : State) (c : CopyCmd) (t : Team) (src : Bool × Nat) (srcLoc : Loc) (outside bad : Bool) : State :=
  let s := s.noteLoads (some t.seq) [srcLoc]
  let s := if outside && !c.outsideSeen then s.modTeam c.team fun t => t.detEvent 5 c.pc else s
  if !bad then s
  else if c.poisonSeen then s.flagPoison (some c.team)
  else s.enginePoison c.team (src.2 % 2 ^ 63) c.pc

/-- The location of a byte of a side. -/
def State.sideLoc (s : State) (c : CopyCmd) (local_ : Bool) (a : Nat) : Loc :=
  if local_ then .pool c.gang c.group a else s.locOf (tagOf c.asid a) a

/-- A byte that the copy's own earlier elements have gathered, or written at a peer (R319). -/
def State.copyOwn (s : State) (c : CopyCmd) (l : Loc) : Option Byte :=
  let gathered : Option Byte := c.word.bind fun w =>
    (w.bytes.find? fun b => s.sideLoc c w.local_ (w.addr + b.1) == l).map (·.2)
  gathered.or (match l with
    | .virt tag va => Tab.find c.away (vkey tag va)
    | .pool .. => none)

/-- A byte as the copy reads it: as its own earlier elements have written it, else from memory (R319). -/
def State.copyByte (s : State) (c : CopyCmd) (l : Loc) : Byte := (s.copyOwn c l).getD (s.readLoc l)

/-- The copy meets poison at a location: in memory, or in a granule that its own earlier elements have written, or gathered,
poisoned (R323, R402). -/
def State.copyPoison (s : State) (c : CopyCmd) (l : Loc) : Bool :=
  let gathered := c.word.any fun w =>
    let g := s.sideLoc c w.local_ w.addr
    w.bad && g.line == l.line && g.inLine / 32 == l.inLine / 32
  s.poisonLoc l || gathered || (match l with
    | .virt tag va => c.awayBad.contains (vkey tag va / 32)
    | .pool .. => false)

/-- An element counts as an event of code 5 under DET (R373): by a window of another grid on either side, or by a byte that it
reads, of its destination too where it sets one nibble (R321). -/
def State.copyOutside (s : State) (c : CopyCmd) (src : Bool × Nat) (srcLoc : Loc) (dst : Bool × Nat) (dstLoc : Loc)
    (n : Nat) : Bool :=
  let read := (List.range n).map srcLoc.add ++ if c.kind == .cpyq && c.desc.dframe.nfmt.bits == 4 then [dstLoc] else []
  s.foreignWindow c src.1 src.2 || s.foreignWindow c dst.1 dst.2 ||
    match (s.team c.team).bind fun t => s.grid t.seq with
    | none => false
    | some g => read.any fun l => g.outside.contains l && (s.copyOwn c l).isNone

/-- The naturally aligned word of a location, and the place in it. -/
def Loc.word : Loc → Loc × Nat
  | .virt tag va => (.virt tag (va / 4 * 4), va % 4)
  | .pool g grp off => (.pool g grp (off / 4 * 4), off % 4)

/-- The source bytes of an element; a part of a word is taken from the word as it was read whole (R219, R319). -/
def State.copyRead (s : State) (c : CopyCmd) (l : Loc) (n : Nat) : List Byte × CopyCmd :=
  if 4 ≤ n then ((List.range n).map fun i => s.copyByte c (l.add i), c)
  else
    let (base, o) := l.word
    let fresh : List Byte := (List.range 4).map fun i => s.copyByte c (base.add i)
    let bs : List Byte := match c.latch with
      | some (b, bs) => if b == base then bs else fresh
      | none => fresh
    ((bs.drop o).take n, { c with latch := some (base, bs) })

/-- What an element writes, and its flags: its source bytes `b`, or the code re-dithered beside the other nibble of its
destination byte (R321). -/
def State.copyData (s : State) (c : CopyCmd) (n : Nat) (b : List Byte) (dst : Loc) : List Byte × Flags :=
  let d := c.desc
  if c.kind == .cpyq then
    let e0 := d.ext.headD 1
    let fs := d.sframe.nfmt
    let fd := d.dframe.nfmt
    let nib (f : NFmt) : Nat := if f.bits == 4 then (n % e0) % 2 else 0
    let code := (b.headD 0).toNat / 16 ^ nib fs % 2 ^ fs.bits
    let q := fd.quantise (fs.reconVal code (frameIndex d.sframe d n) d.sframe.key) (frameIndex d.dframe d n) d.dframe.key
    let old := (s.copyByte c dst).toNat
    let byte := if fd.bits == 8 then q.1 else if nib fd == 0 then old / 16 * 16 + q.1 else old % 16 + 16 * q.1
    ([BitVec.ofNat 8 byte], q.2)
  else (b, 0)

/-- Where element `n` of a side lies (R318, R321). -/
def CopyCmd.place (c : CopyCmd) (base : W64) (strides : List Int) (f : CFrame) (n : Nat) : Bool × Nat :=
  let tuple := tupleOf n c.desc.ext
  if c.kind == .cpyq then sideAddr base (strideSum tuple.tail strides.tail + (tuple.headD 0 * f.nfmt.bits / 8 : Nat))
  else sideAddr base (strideSum tuple strides)

/-- How a store of a copy, or one element, ends. -/
inductive Elem where
  | done (s : State) (c : CopyCmd)
  | wait (s : State) (c : CopyCmd)
  | stop (s : State) (c : CopyCmd) (cause : BitVec 8) (a : Nat)
  deriving DecidableEq, Repr

/-- Write bytes of one destination word or element, at places from `a`: here, or as a write to the peer that homes it (R322,
R446), after which the copy's own reads there see them. -/
def State.copyPut (s : State) (cl : Nat) (t : Team) (c : CopyCmd) (local_ : Bool) (a : Nat) (bytes : List (Nat × Byte))
    (bad : Bool) : Elem :=
  match s.copyReach c cl local_ .store a with
  | .wait s => .wait s c
  | .stop cause => .stop s c cause a
  | .peer s p =>
    .done (s.send { dest := BitVec.ofNat 12 (p.pa / 2 ^ 52), va := a / 128 * 128
                    cls := if c.kind == .cpyp then 1 else 2, team := some c.team, grid := some t.seq, op := c.op
                    what := if c.kind == .cpyp then .put (bytes.map fun b => (a % 128 + b.1, b.2))
                            else .write (bytes.map fun b => (a % 128 + b.1, b.2))
                    poisoned := bad })
      { c with
        away := bytes.foldl (fun m b => Tab.put m (vkey (tagOf c.asid a) (a + b.1)) b.2) c.away
        awayBad := if bad then insertNat (vkey (tagOf c.asid a) a / 32) c.awayBad else c.awayBad }
  | .here s dl =>
    let (crc, s) := if local_ then (false, s) else s.crossing (t.core.toNat / 64) (tagOf c.asid a) a
    let bytes := bytes.map fun b => (dl.inLine + b.1, b.2)
    let s := s.performStore (some t.seq) dl.line bytes
    .done (if crc then s.poisonBytes dl.line bytes else if bad then s.setPoison dl else s) c

/-- Write the word that is being gathered. -/
def State.copyFlush (s : State) (cl : Nat) (t : Team) (c : CopyCmd) : Elem :=
  match c.word with
  | none => .done s c
  | some w =>
    match s.copyPut cl t c w.local_ w.addr w.bytes w.bad with
    | .done s c => .done s { c with word := none }
    | r => r

/-- Gather bytes of an element narrower than a word into its destination word; the source word that was read follows. -/
def State.copyGather (s : State) (c : CopyCmd) (local_ : Bool) (a : Nat) (bytes : List Byte) (bad : Bool) : CopyCmd :=
  let w := c.word.getD { local_ := local_, addr := a / 4 * 4 }
  let new := bytes.zipIdx.map fun b => (a % 4 + b.2, b.1)
  let w := { w with bytes := (w.bytes.filter fun b => !new.any (·.1 == b.1)) ++ new, bad := w.bad || bad }
  let (base, _) := (s.sideLoc c local_ a).word
  { c with
    word := some w
    latch := c.latch.map fun e =>
      if e.1 == base then (e.1, e.2.mapIdx fun i b => ((new.find? (·.1 == i)).map (·.2)).getD b) else e }

/-- The copy stops (R323): what the elements below have gathered is written first. -/
def State.copyStop (s : State) (cl : Nat) (t : Team) (c : CopyCmd) (cause : BitVec 8) (a : Nat) : Elem :=
  match s.copyFlush cl t c with
  | .done s c => .stop s c cause a
  | r => r

/-- Perform element `n` of a copy (R319, R321 to R323). -/
def State.copyElem (s : State) (cl : Nat) (t : Team) (c : CopyCmd) (n : Nat) : Elem :=
  let src := c.place c.src c.desc.sstride c.desc.sframe n
  let dst := c.place c.dst c.desc.dstride c.desc.dframe n
  let width := if c.kind == .cpyq then 1 else c.desc.size
  let other : Bool := (c.word.map fun w => !(w.local_ == dst.1 && w.addr == dst.2 / 4 * 4)).getD false
  match if other then s.copyFlush cl t c else .done s c with
  | .wait s c => .wait s c
  | .stop s c cause a => .stop s c cause a
  | .done s c =>
    match s.copyReach c cl src.1 .load src.2 with
    | .wait s => .wait s c
    | .peer s _ => .wait s c
    | .stop cause => s.copyStop cl t c cause src.2
    | .here s sl =>
      match s.copyReach c cl dst.1 .store dst.2 with
      | .wait s => .wait s c
      | .stop cause => s.copyStop cl t c cause dst.2
      | .peer s p =>
        let tag := tagOf c.asid dst.2
        if c.kind == .cpyq && c.desc.dframe.nfmt.bits == 4 && (Tab.find s.lines (lineKey tag dst.2)).isNone then
          .wait (s.requestLine tag dst.2 p 2 (some c.team) (some t.seq)) c
        else act s c src sl dst (.virt tag dst.2) width
      | .here s dl => act s c src sl dst dl width
where
  /-- The element, once both sides are reached; one whose source passes between dies meets poison where its CRC check has
  failed twice (R435). -/
  act (s : State) (c : CopyCmd) (src : Bool × Nat) (sl : Loc) (dst : Bool × Nat) (dl : Loc) (width : Nat) : Elem :=
    let (crc, s) := if src.1 then (false, s) else s.crossing (t.core.toNat / 64) (tagOf c.asid src.2) src.2
    let bad := s.copyPoison c sl || crc
    let out := t.launch.det && s.copyOutside c src sl dst dl width
    let s := s.copyEvents c t src sl out bad
    let (b, c) := s.copyRead c sl width
    let (bytes, fl) := s.copyData c n b dl
    let c := { c with flags := c.flags ||| fl, outsideSeen := c.outsideSeen || out, poisonSeen := c.poisonSeen || bad }
    if 4 ≤ width then s.copyPut cl t c dst.1 dst.2 (bytes.zipIdx.map fun e => (e.2, e.1)) bad
    else .done s (s.copyGather c dst.1 dst.2 bytes bad)

/-- Perform elements in order until the copy ends, waits or stops (R319, R323). -/
def State.copyRun (s : State) (cl : Nat) (t : Team) : Nat → CopyCmd → State × CopyCmd
  | 0, c =>
    match s.copyFlush cl t c with
    | .done s c => (s, { c with acted := true })
    | .wait s c => (s, c)
    | .stop s c cause a => (s, { c with acted := true, stop := some (cause, a) })
  | n + 1, c =>
    match s.copyElem cl t c c.next with
    | .wait s c => (s, c)
    | .stop s c cause a => (s, { c with acted := true, stop := some (cause, a) })
    | .done s c => s.copyRun cl t n { c with next := c.next + 1 }

def State.setCopy (s : State) (cl : Nat) (c : CopyCmd) : State :=
  let r := s.cluster cl
  s.setCluster cl { r with copies := r.copies.map fun x => if x.team == c.team && x.op == c.op then c else x }

/-- A copy burst of the cluster holds its current (R396). -/
def State.copyCurrent (s : State) (cl : Nat) : Bool := (s.cluster cl).currents.contains .copy

/-- COPY_EXECUTION: the copy engine performs the next command of its queue (R316, R319), as far as it need not wait. -/
def execCopyExecution (cluster : BitVec 6) (s : State) : Result :=
  let cl := cluster.toNat
  match (s.cluster cl).copies.find? fun c => !c.acted with
  | none => .next s
  | some c =>
    match s.team c.team with
    | none => .next s
    | some t =>
      if !s.copyCurrent cl || !s.forkDone t.core.toNat c.team c.fork c.op then .next s
      else
        let (s, c) := s.copyRun cl t (c.desc.total - c.next) c
        .next (s.setCopy cl c)

/-- The fatal verdicts of a stopped copy are spent. -/
def State.spendCopyFatal (s : State) (c : CopyCmd) (cl : Nat) : State :=
  { s with relia := { s.relia with fatal := s.relia.fatal.filter fun f =>
      !(f.source.toNat == srcCluster cl && f.team == some c.team) } }

/-- A copy that has been performed completes once its stores are accepted (R322, R324): its flags are reported, its
counter is lowered, and a stop is reported (R323). -/
def State.completeCopy (s : State) (cl : Nat) (c : CopyCmd) : State :=
  if c.acted && !s.outPending c.team c.op then
    let r := s.cluster cl
    let s := s.setCluster cl { r with copies := r.copies.filter fun x => !(x.team == c.team && x.op == c.op) }
    let s := s.modTeam c.team fun t => (t.mxOr c.flags).completeOp c.op
    match c.stop with
    | none => s
    | some (cause, a) =>
      (s.spendCopyFatal c cl).report c.team { cause := cause, pc := c.pc, info := BitVec.ofNat 64 a, isReport := true } c.sys
  else s

/-- ENGINE_COMPLETION: the named operation of a command of the cluster completes, if it has acted and its stores are
accepted (R287, R289, R324); a reduction is applied and completes (R167, R168). -/
def execEngineCompletion (cluster : BitVec 6) (op : Nat) (s : State) : Result :=
  let cl := cluster.toNat
  match s.mEntry cl op with
  | some e => .next (s.completeMEntry cl e)
  | none =>
    match (s.cluster cl).copies.find? fun c => opName c.team c.op == op with
    | some c => .next (s.completeCopy cl c)
    | none =>
      match s.reds.find? fun r => opName r.team r.op == op with
      | some r => .next (s.performRed r)
      | none => .next s

end Sys2Proof.Machine
end

