-- ==== Sys2Proof/Machine/MemVec.lean ====
section
/-! DEFINITION. The vector loads and stores (spec/06 R155 to R161). -/

namespace Sys2Proof.Machine

/-- A global vector access under MV. -/
def globalAccess (i : Instr) (f : MV) (store : Bool) (width : Nat) : VAccess :=
  { instr := i, d := f.d.toNat, a := f.a.toNat, base := f.s.toNat, local_ := false, store := store, width := width }

/-- A local vector access under MV. -/
def localAccess (i : Instr) (f : MV) (store : Bool) (width : Nat) : VAccess :=
  { globalAccess i f store width with local_ := true }

def execVld (f : MV) (s : State) : Result := vectorAccess (globalAccess (.vld f) f false 4) s
def execVldb (f : MV) (s : State) : Result := vectorAccess (globalAccess (.vldb f) f false 1) s
def execVldh (f : MV) (s : State) : Result := vectorAccess (globalAccess (.vldh f) f false 2) s
def execVldd (f : MV) (s : State) : Result := vectorAccess (globalAccess (.vldd f) f false 8) s
def execVst (f : MV) (s : State) : Result := vectorAccess (globalAccess (.vst f) f true 4) s
def execVstb (f : MV) (s : State) : Result := vectorAccess (globalAccess (.vstb f) f true 1) s
def execVsth (f : MV) (s : State) : Result := vectorAccess (globalAccess (.vsth f) f true 2) s
def execVstd (f : MV) (s : State) : Result := vectorAccess (globalAccess (.vstd f) f true 8) s
def execVldl (f : MV) (s : State) : Result := vectorAccess (localAccess (.vldl f) f false 4) s
def execVstl (f : MV) (s : State) : Result := vectorAccess (localAccess (.vstl f) f true 4) s
def execVldlb (f : MV) (s : State) : Result := vectorAccess (localAccess (.vldlb f) f false 1) s
def execVstlb (f : MV) (s : State) : Result := vectorAccess (localAccess (.vstlb f) f true 1) s

end Sys2Proof.Machine
end

