-- ==== Sys2Proof/Machine/Scoreboard.lean ====
section
/-! DEFINITION. What an instruction needs before it issues (spec/01 R42, R53, spec/06 R170, spec/18 R396): the scalar
registers it reads or writes, the in-flight counter it raises, a vector burst. The meanings test the same themselves. -/

namespace Sys2Proof.Machine

/-- What an instruction reads and writes of a team's registers, and its lookahead (R19, R27, R33, R52, R53). -/
structure Use where
  /-- scalar fields read (a field of 64 or more is a k register), and scalar registers written -/
  s : List Nat := []
  sd : List Nat := []
  /-- vector registers that a pass reads in its word, and in every word; those that it writes -/
  v : List Nat := []
  vall : List Nat := []
  vd : List Nat := []
  /-- a per-lane instruction (R19) -/
  lanes : Bool := false
  /-- N of R52, of a long-latency instruction -/
  ahead : Option Nat := none
  /-- what it writes comes from outside the core, after its check (R189) -/
  outside : Bool := false
  /-- a load (R192) -/
  load : Bool := false
  /-- a branch or jump, whose direction and target are predicted (R181) -/
  jump : Bool := false
  deriving DecidableEq, Repr

/-- A per-lane instruction beside the guard block, which it reads. -/
def Team.laneUse (t : Team) (v vd : List Nat) (s : List Nat := []) (sd : List Nat := []) : Use :=
  { s := s ++ t.guardRegs, sd := sd, v := v, vd := vd, lanes := true }

/-- A vector access (R155). -/
def Team.accUse (t : Team) (f : MV) (store wide : Bool) : Use :=
  let d := pairOf wide f.d.toNat
  { t.laneUse (if store then f.a.toNat :: d else [f.a.toNat]) (if store then [] else d) [f.s.toNat] with
    ahead := some (lookahead f.sv f.h), load := !store }

/-- An engine command of format EN: the scalars it reads, and those it writes. -/
def enUse (f : EN) (s : List Nat) (sd : List Nat := []) : Use :=
  { s := s, sd := sd, ahead := some (lookahead f.sv f.h), outside := true }

/-- An AMO (R230). -/
def amoUse (f : AM) (cas : Bool) : Use :=
  { s := (if cas then [f.d.toNat + 1] else []) ++ [f.d.toNat, f.s.toNat], sd := [f.d.toNat]
    ahead := some (lookahead f.sv f.h), outside := true }

/-- The registers that an instruction of a team uses. A vector access and RED take a log entry for each word, as R14 has passes:
R183 counts a memory or an engine operation as one pass (DESIGN CHOICE, log 14). -/
def useOf (t : Team) (i : Instr) : Use :=
  let wide := t.ctx.et.wide
  let w (r : BitVec 7) : List Nat := pairOf wide r.toNat
  match i with
  | .sadd f | .ssub f | .smul f | .smulh f | .sand f | .sor f | .sxor f | .sandn f | .sshl f | .sshr f | .ssar f
  | .srot f | .smin f | .smax f | .sminu f | .smaxu f | .slea4 f | .slea8 f | .smulhu f =>
    { s := [f.a.toNat, f.b.toNat], sd := [f.d.toNat] }
  | .saddi f | .sandi f => { s := [f.a.toNat], sd := [f.d.toNat] }
  | .sshli f | .sshri f => { s := [f.a.toNat], sd := [f.d.toNat] }
  | .smovi f => { sd := [f.d.toNat] }
  | .sseth f | .ssett f => { s := [f.d.toNat], sd := [f.d.toNat] }
  | .scmp f => { s := [f.a.toNat, f.b.toNat], sd := [f.d.toNat] }
  | .smov f | .snot f | .sneg f | .spopc f | .sclz f | .sctz f | .sbrev f | .ssext32 f | .szext32 f | .sabs f =>
    { s := [f.a.toNat], sd := [f.d.toNat] }
  | .mand f | .mandn f | .mor f | .mxor f =>
    { s := t.blockFields f.a.toNat ++ t.blockFields f.b.toNat, sd := t.blockFields f.d.toNat }
  | .mnot f | .mcpy f => { s := t.blockFields f.a.toNat, sd := t.blockFields f.d.toNat }
  | .mpopc f | .mffs f => { s := t.blockFields f.a.toNat, sd := [f.d.toNat] }
  | .mset f | .mclr f => { sd := t.blockFields f.d.toNat }
  | .br _ => { jump := true }
  | .brz f | .brnz f => { s := [f.s.toNat], jump := true }
  | .call f => { sd := [f.s.toNat], jump := true }
  | .brzm f | .brnzm f => { s := t.blockFields f.s.toNat, jump := true }
  | .jmpr f | .ret f => { s := [f.a.toNat], jump := true }
  | .callr f => { s := [f.a.toNat], sd := [f.d.toNat], jump := true }
  | .mma f | .mmag f | .mzero f | .mqnt f | .unpub f => enUse f [f.a.toNat]
  | .mldacc f | .mdrain f | .mdraina f | .mdrainb f | .cpy f | .cpyq f | .cpyp f | .publish f =>
    enUse f [f.a.toNat, f.b.toNat, f.c.toNat]
  | .launch f => enUse f [f.a.toNat, f.b.toNat] [f.c.toNat]
  | .vadd f | .vsub f | .vmul f | .vmulh f | .vmin f | .vmax f | .vand f | .vor f | .vxor f | .vandn f | .vshl f
  | .vshr f | .vsar f | .vrot f => t.laneUse (w f.a ++ w f.b) (w f.d)
  | .vfma f | .vfms f => t.laneUse (w f.a ++ w f.b ++ w f.d) (w f.d)
  | .vcmp f => t.laneUse (w f.a ++ w f.b) [] [] (t.blockFields f.d.toNat)
  | .vsel f => t.laneUse (w f.a ++ w f.b) (w f.d) (t.blockFields (t.gb + t.blockRegs))
  | .vflk f => t.laneUse [f.a.toNat, f.b.toNat] [f.d.toNat]
  | .vmov f | .vneg f | .vabs f | .vnot f | .vpopc f | .vclz f | .vflr f | .vceil f | .vtrnc f | .vrnd f | .vbrev f
  | .vclass f => t.laneUse (w f.a) (w f.d)
  | .vlane f => t.laneUse [] [f.d.toNat]
  | .vdiv f => { t.laneUse [f.a.toNat, f.d.toNat] [f.d.toNat] with ahead := some (lookahead f.sv f.h) }
  | .vrcp f | .vsqrt f | .vrsq f | .vexp2 f | .vlog2 f | .vsin f | .vcos f | .vtanh f | .vsigm f | .vexp f | .vlog f =>
    { t.laneUse [f.a.toNat] [f.d.toNat] with ahead := some (lookahead f.sv f.h) }
  | .vcvt f => t.laneUse (w f.a) (pairOf ((ElemType.ofCode f.t.toNat).getD .i32).wide f.d.toNat)
  | .vmovs f => t.laneUse [] (w f.d) [f.a.toNat]
  | .vgets f => t.laneUse (w f.a) [] [f.b.toNat] [f.d.toNat]
  | .vshfl f => { t.laneUse [f.b.toNat] (w f.d) with vall := w f.a }
  | .vbfly f => { t.laneUse [] (w f.d) [f.b.toNat] with vall := w f.a }
  | .vredwAdd f | .vredwMin f | .vredwMax f | .vredwAnd f | .vredwOr f | .vredwXor f =>
    t.laneUse (w f.a) [] [] [f.d.toNat]
  | .vaddi f => t.laneUse (w f.a) (w f.d)
  | .vmovi f => t.laneUse [] (w f.d)
  | .vqnt f | .vdqnt f => t.laneUse [f.a.toNat] [f.d.toNat] [f.b.toNat]
  | .vld f | .vldb f | .vldh f | .vldl f | .vldlb f => t.accUse f false false
  | .vldd f => t.accUse f false true
  | .vst f | .vstb f | .vsth f | .vstl f | .vstlb f => t.accUse f true false
  | .vstd f => t.accUse f true true
  | .sld f | .sldacq f =>
    { s := [f.a.toNat, f.s.toNat], sd := [f.d.toNat], ahead := some (lookahead f.sv f.h), load := true }
  | .sst f | .sstrel f => { s := [f.d.toNat, f.a.toNat, f.s.toNat], ahead := some (lookahead f.sv f.h) }
  | .amoadd f | .amoand f | .amoor f | .amoxor f | .amomin f | .amomax f | .amoswp f => amoUse f false
  | .amocas f => amoUse f true
  | .cpref f | .cprefl2 f | .cflush f | .cinv f => { s := [f.a.toNat, f.s.toNat], ahead := some (lookahead f.sv f.h) }
  | .redadd f | .redadds f => { t.laneUse [f.d.toNat] [] [f.s.toNat] with ahead := some (lookahead f.sv f.h) }
  | .modew f => { s := [f.s.toNat] }
  | .moder f | .txstat f | .rdc f | .bartest f => { sd := [f.s.toNat] }
  | .sysr f => { sd := [f.s.toNat] }
  | .sysw f => { s := [f.s.toNat] }
  | .waitc f => { s := [f.s.toNat] }
  | .txend f => { sd := t.blockFields f.s.toNat, outside := true }
  | .rmap f => { sd := t.blockFields f.s.toNat }
  | .txbegin _ => { s := t.guardRegs }
  | .eret _ => { jump := true }
  | _ => {}

/-- The scalar fields that an instruction reads or writes. -/
def scalarsOf (t : Team) (i : Instr) : List Nat := let u := useOf t i; u.sd ++ u.s

/-- The vector access that an instruction is. -/
def accessOf : Instr → Option VAccess
  | .vld f => some (globalAccess (.vld f) f false 4)
  | .vldb f => some (globalAccess (.vldb f) f false 1)
  | .vldh f => some (globalAccess (.vldh f) f false 2)
  | .vldd f => some (globalAccess (.vldd f) f false 8)
  | .vst f => some (globalAccess (.vst f) f true 4)
  | .vstb f => some (globalAccess (.vstb f) f true 1)
  | .vsth f => some (globalAccess (.vsth f) f true 2)
  | .vstd f => some (globalAccess (.vstd f) f true 8)
  | .vldl f => some (localAccess (.vldl f) f false 4)
  | .vstl f => some (localAccess (.vstl f) f true 4)
  | .vldlb f => some (localAccess (.vldlb f) f false 1)
  | .vstlb f => some (localAccess (.vstlb f) f true 1)
  | _ => none

/-- The path whose counter a memory instruction raises when its first pass issues (R169, R199), by the mask and the addresses that
the main pipeline claims for the pass (R183). -/
def State.pathClaimed (s : State) (t : Team) (i : Instr) (c : Config.Claim) : Option (Fin 8) :=
  match i with
  | .sld _ | .sldacq _ => some (s.pathOf t false pathLDG c.addresses)
  | .sst _ | .sstrel _ | .cflush _ | .cinv _ => some (s.pathOf t false pathSTG c.addresses)
  | i =>
    match accessOf i with
    | none => none
    | some x => if c.mask == 0 then none else some (s.pathOf t x.local_ (if x.store then pathSTG else pathLDG) c.addresses)

/-- The path whose counter an engine operation raises once it is checked, and not before (R189). -/
def Team.pathEngine (t : Team) : Instr → Option (Fin 8)
  | .amoadd _ | .amoand _ | .amoor _ | .amoxor _ | .amomin _ | .amomax _ | .amoswp _ | .amocas _ => some pathLDG
  | .cpy _ | .cpyq _ | .cpyp _ => some pathCPY
  | .mma _ | .mmag _ | .mzero _ | .mldacc _ => some pathMTX
  | .mdrain _ | .mdraina _ | .mdrainb _ | .mqnt _ => some pathDRN
  | .redadd _ | .redadds _ => if t.issued.isEmpty then none else some pathDRN
  | .txend _ => some pathTX
  | _ => none

/-- The passes of an instruction that a vector burst lets issue without limit (R396). -/
def draws : Instr → Bool
  | .vmul _ | .vmulh _ | .vfma _ | .vfms _ | .vdiv _ | .vrcp _ | .vsqrt _ | .vrsq _ | .vexp2 _ | .vlog2 _ | .vsin _
  | .vcos _ | .vtanh _ | .vsigm _ | .vexp _ | .vlog _ => true
  | _ => false

/-- The core lacks the current for an instruction's passes (R396): it holds no vector burst and has issued 16 such passes
in 64 cycles, which a free value says. -/
def State.lacksCurrent (s : State) (t : Team) (i : Instr) : Bool :=
  let c := t.core.toNat
  draws i && Config.passesUsed s.freeIdx && !((s.cluster (c / 4)).currents.contains (.vector (BitVec.ofNat 2 c)))

/-! ### The place of issue (R52, R183, R199) -/

/-- Where the main pipeline issues next for a team, and the number of that instruction in program order. -/
def Team.place (t : Team) : Addr × Nat := t.pipe.next.getD (t.pc, t.pass)
def Team.index (t : Team) : Nat := if t.pipe.next.isNone then t.pipe.base else t.pipe.count

/-- The team as it stands for an instruction at that place. -/
def Team.ahead (t : Team) : Team := { t with pc := t.place.1, pass := t.place.2 }

/-- The place of issue is the committed one. -/
def Team.atHead (t : Team) : Bool := t.place == (t.pc, t.pass)

/-- The instruction of an entry of the operand log. -/
def LogEntry.use (t : Team) (e : LogEntry) : Use := (e.word.bind fun w => (decode w).toOption.map (useOf t)).getD {}

/-- The scoreboard keeps the next instruction to issue (R52, R53): it stands beyond the lookahead window of a long-latency
instruction without its result and reads a register, of a pair either, that this one writes. An AMO whose check has passed
is the last such instruction. -/
def State.dependent (s : State) (k : Nat) (t : Team) (i : Instr) : Bool :=
  let u := useOf t i
  (t.pipe.log.any fun e =>
    let x := e.use t
    (x.ahead.map fun n => decide (e.n + n < t.index)).getD false && !(!x.outside && Config.longDone s.freeIdx e.at_) &&
      (u.s.any x.sd.contains || (u.v ++ u.vall).any x.vd.contains)) ||
    s.amos.any fun a => a.team == k && decide (t.pipe.base + a.ahead ≤ t.index) && u.s.contains a.d.toNat

/-- The counter that the next instruction to issue raises with its first pass (R199). -/
def State.raises (s : State) (t : Team) (i : Instr) : Option (Fin 8) :=
  if (t.pipe.log.any fun e => e.n == t.index) || (t.index == t.pipe.base && t.openOp.isSome) then none
  else s.pathClaimed t.ahead i (Config.claim s.freeIdx)

/-- The counter of the engine operation at which a team stands is saturated (R170, R189). -/
def Team.engineFull (t : Team) (i : Instr) : Bool := t.atHead && (t.pathEngine i).any fun p => 255 ≤ t.counter p

/-- A counter with what unchecked passes have raised (R199) is below 255 (R170). -/
def Team.issueRoom (t : Team) (p : Fin 8) : Bool := t.counter p + (t.pipe.log.filter fun e => e.path == some p).length < 255

/-- Staging rows that a pass of an instruction takes (R187). -/
def Use.staging (u : Use) : Nat := if u.lanes then u.vd.length else 0

/-- The instruction that a team is to issue next is stalled by what R42 lists besides waiting instructions: an operand on its
way, a free row, a saturated counter, a current reservation, the operand log and its staging rows (R187, R195). -/
def State.stalled (s : State) (k : Nat) (t : Team) (i : Instr) : Bool :=
  s.dependent k t i || (t.atHead && s.rowStalled t) || !(((s.raises t i).map t.issueRoom).getD true) || t.engineFull i ||
    s.lacksCurrent t i || !s.logRoom t || !s.stagingRoom t (useOf t i).staging

end Sys2Proof.Machine
end

