-- ==== Sys2Proof/Machine/Sync.lean ====
section
/-! DEFINITION. Barriers and phases (spec/13 R300 to R308). -/

namespace Sys2Proof.Machine

/-! ### Episodes (R302, R304) -/

/-- An operation of a team whose counter has not been lowered. -/
def State.inFlight (s : State) (k op : Nat) : Bool :=
  match s.team k with
  | none => false
  | some t => t.paths.toList.any fun l => l.any fun f => f.id == op

/-- An arrival is counted once every operation tied to it has completed (R302). -/
def State.counted (s : State) (a : Arrival) : Bool := a.ties.all fun e => !s.inFlight e.1 e.2

/-- The open episode's arrived set holds every live participant, and every arrival in it is counted, that of a team which
has ended since too (R302 to R304). -/
def State.episodeDone (s : State) (b : Barrier) (live : List Nat) : Bool :=
  !b.arrivals.isEmpty && b.arrivals.all s.counted && live.all fun n => b.arrivals.any (·.who == n)

/-- Complete the open episode if its condition holds; the next opens empty (R302). -/
def State.settleBarrier (s : State) (b : Barrier) (live : List Nat) : Barrier :=
  if s.episodeDone b live then { episode := b.episode + 1, arrivals := [] } else b

/-- The linear team number (R360). -/
def Team.linear (t : Team) : Nat := t.gang * t.launch.teams + t.num

/-- The live participants of a grid's barrier: its teams that have not ended (R301, R302, R304). -/
def State.gridLive (s : State) (seq gangs teams : Nat) : List Nat :=
  (List.range gangs).flatMap fun g =>
    let live := match s.gang (gangKeyOf seq g) with
      | some gg => gg.live
      | none => List.range teams
    live.map fun n => g * teams + n

/-- Settle the barriers of a team's gang, unless they are frozen (R266), and the barrier of its grid. -/
def State.settle (s : State) (t : Team) : State :=
  let s := s.modGang t.gangKey fun g =>
    if g.frozen then g else { g with barriers := g.barriers.map fun b => s.settleBarrier b g.live }
  s.modGrid t.seq fun g =>
    { g with barrier := s.settleBarrier g.barrier (s.gridLive t.seq t.launch.gangs t.launch.teams) }

/-- The barrier that an id names for a team (R301). -/
def State.barrierOf (s : State) (t : Team) (id : BitVec 5) : Barrier :=
  if id == 16 then ((s.grid t.seq).map (·.barrier)).getD {}
  else ((s.gang t.gangKey).map fun g => g.barriers.getD id.toNat {}).getD {}

/-- The number by which a team arrives at a barrier: in its gang, or in its grid. -/
def Team.arriver (t : Team) (id : BitVec 5) : Nat := if id == 16 then t.linear else t.num

/-- Engine operations of the team on paths CPY, MTX and DRN that have not completed (R302). -/
def Team.engineOps (t : Team) : List (Nat × Nat) :=
  ([pathCPY, pathMTX, pathDRN].flatMap fun p => t.paths[p]).map fun f => (t.key, f.id)

/-- Record an arrival in the open episode (R302). -/
def State.arrive (s : State) (t : Team) (id : BitVec 5) : State :=
  let a : Arrival := { who := t.arriver id, ties := t.engineOps }
  if id == 16 then s.modGrid t.seq fun g => { g with barrier := { g.barrier with arrivals := g.barrier.arrivals ++ [a] } }
  else
    s.modGang t.gangKey fun g =>
      let b := g.barriers.getD id.toNat {}
      { g with barriers := g.barriers.setIfInBounds id.toNat ({ b with arrivals := b.arrivals ++ [a] }) }

/-- The pending mark of a barrier has its episode completed. -/
def State.markDone (s : State) (t : Team) (id : BitVec 5) (e : Nat) : Bool := e < (s.barrierOf t id).episode

/-- leave(id) (R302). -/
def Team.leave (t : Team) (id : BitVec 5) : Team := { t with pend := Tab.erase t.pend id.toNat }

/-- The barrier id is not one that the team's grid has (R301). -/
def Team.noBarrier (t : Team) (id : BitVec 5) : Bool := id == 16 && !t.launch.cohort

/-! ### The barrier instructions (R302) -/

/-- The barrier units of a team's gang are frozen (R266). -/
def State.frozenAt (s : State) (t : Team) (id : BitVec 5) : Bool :=
  id != 16 && ((s.gang t.gangKey).map (·.frozen)).getD false

/-- What a barrier instruction checks first: transaction misuse, then id 16 without COHORT (R301, R243). At a frozen unit it
waits for the restore. -/
def barrierOp (i : Instr) (uses : List Nat) (id : BitVec 5) (s : State) (f : Nat → Team → Result) : Result :=
  issueScalar s (fun _ => uses) fun k t =>
    if t.txstat.active then .next (s.raise k (t.misuse (wordOf i)))
    else if t.noBarrier id then .next (s.raise k (t.barrierMisuse (wordOf i)))
    else if s.frozenAt t id then .next s
    else f k t

/-- The arrival of BARARR and BARSYNC: barrier misuse while the marked episode is open; else the team leaves a completed
one, arrives, and goes on as `after` says (R302). -/
def arrival (i : Instr) (id : BitVec 5) (after : Team → Team) (s : State) (k : Nat) (t : Team) : State :=
  let s := s.settle t
  match Tab.find t.pend id.toNat with
  | some e =>
    if s.markDone t id e then
      let t' := after { t.leave id with pend := Tab.put t.pend id.toNat (s.barrierOf t id).episode }
      ((s.setTeam k t').arrive t id).settle t
    else s.raise k (t.barrierMisuse (wordOf i))
  | none =>
    let t' := after { t with pend := Tab.put t.pend id.toNat (s.barrierOf t id).episode }
    ((s.setTeam k t').arrive t id).settle t

/-- BARARR, and BARSYNC before its arrival: the release wait of R227 follows the misuse check. -/
def arriveOp (i : Instr) (id : BitVec 5) (after : Team → Team) (s : State) : Result :=
  barrierOp i [] id s fun k t =>
    let open_ : Bool := match Tab.find t.pend id.toNat with
      | some e => !(s.settle t).markDone t id e
      | none => false
    if !open_ && !s.released k t then .next s
    else syncOp i s k t (arrival i id after)

def execBararr (f : SYB) (s : State) : Result := arriveOp (.bararr f) f.i Team.retire s

/-- The wait of BARWAIT and BARSYNC: the team leaves a completed episode and retires; under DET it parks (R361). -/
def waitEpisode (id : BitVec 5) (e : Nat) (s : State) (k : Nat) (t : Team) : Result :=
  let s := if t.buffers then s else s.settle t
  if s.markDone t id e then s.commit k (t.leave id).retire
  else if t.buffers then s.commit k { t with park := some .barrier }
  else .next s

def execBarwait (f : SYB) (s : State) : Result :=
  barrierOp (.barwait f) [] f.i s fun k t =>
    match Tab.find t.pend f.i.toNat with
    | none => .next (s.raise k (t.barrierMisuse (wordOf (.barwait f))))
    | some e => waitEpisode f.i e s k t

/-- A team whose BARSYNC has arrived waits at it (R265, R302). -/
def Team.waitHere (t : Team) : Team := { t with waitOnly := true }

def execBarsync (f : SYB) (s : State) : Result :=
  match (s.cur.bind s.team).map (·.waitOnly) with
  | some true =>
    issueScalar s (fun _ => []) fun k t =>
      match Tab.find t.pend f.i.toNat with
      | none => s.commit k t.retire
      | some e => waitEpisode f.i e s k t
  | _ => arriveOp (.barsync f) f.i Team.waitHere s

/-- BARTEST (R302); `seen` says whether the marked episode has completed. -/
def barTest (f : SYT) (seen : Nat → State → Team → Bool) (s : State) (k : Nat) (t : Team) : State :=
  match Tab.find t.pend f.i.toNat with
  | none => s.setTeam k (t.setS f.s.toNat 2).retire
  | some e =>
    if seen e s t then s.setTeam k ((t.leave f.i).setS f.s.toNat 1).retire
    else s.setTeam k (t.setS f.s.toNat 0).retire

def execBartest (f : SYT) (s : State) : Result :=
  barrierOp (.bartest f) [f.s.toNat] f.i s fun k t =>
    syncOp (.bartest f) s k t fun s k t => barTest f (fun e s t => s.markDone t f.i e) (s.settle t) k t

/-! ### Phases (R307, R308) -/

/-- Complete the open phase episode of a gang if every live team has arrived. -/
def Gang.settlePhase (g : Gang) : Gang :=
  if !g.phArrived.isEmpty && g.live.all fun n => g.phArrived.contains n then
    { g with phase := g.phase + 1, phEpisode := g.phEpisode + 1, phArrived := [] }
  else g

/-- The numbers of a gang's neighbours in its grid (R307). -/
def neighbours (l : Launch) : List Nat :=
  let x := l.x.toNat
  let y := l.y.toNat
  let z := l.z.toNat
  let gx := l.gx.toNat
  let gy := l.gy.toNat
  let at_ (x y : Nat) : Nat := x + gx * y + gx * gy * z
  (if 0 < x then [at_ (x - 1) y] else []) ++ (if x + 1 < gx then [at_ (x + 1) y] else []) ++
    (if 0 < y then [at_ x (y - 1)] else []) ++ (if y + 1 < gy then [at_ x (y + 1)] else [])

/-- A neighbour imposes no wait on phase `p`: it is not resident, or lies within the allowance (R307). Under DET a saved gang
counts as resident (R366), and so does one that has been placed again and has not yet come back. -/
def State.leadOk (s : State) (t : Team) (p : BitVec 32) (n : Nat) : Bool :=
  match s.gang (gangKeyOf t.seq n) with
  | none => true
  | some g =>
    !(g.stat == .resident || (t.launch.det && (g.stat == .saved || g.stat == .placed))) || (p - g.phase).toInt ≤ (t.launch.phase : Int)

/-- The wait of PHADV holds no longer (R307). -/
def State.phaseReady (s : State) (t : Team) : Bool :=
  match t.phWait, s.gang t.gangKey with
  | some e, some g =>
    decide (e < g.phEpisode) && (t.launch.phase == 0 || (neighbours t.launch).all fun n => s.leadOk t g.phase n)
  | _, _ => true

/-- Record the team's arrival in the gang's phase episode (R307). -/
def phaseArrive (s : State) (k : Nat) (t : Team) : State :=
  match s.gang t.gangKey with
  | none => s
  | some g =>
    let g := g.settlePhase
    let t' := { t with phWait := some g.phEpisode, waitOnly := true }
    (s.setTeam k t').setGang t.gangKey { g with phArrived := insertNat t.num g.phArrived }.settlePhase

/-- The team's wait at PHADV ends. -/
def Team.phaseDone (t : Team) : Team := { t with phWait := none }.retire

/-- PHADV (R307): the arrival, then the wait; under DET the wait parks (R361). -/
def execPhadv (f : SY) (s : State) : Result :=
  issueScalar s (fun _ => []) fun k t =>
    if t.txstat.active then .next (s.raise k (t.misuse (wordOf (.phadv f))))
    else if t.waitOnly then
      let s := if t.buffers then s else s.modGang t.gangKey Gang.settlePhase
      if s.phaseReady t then s.commit k t.phaseDone
      else if t.buffers then s.commit k { t with park := some .phase }
      else .next s
    else syncOp (.phadv f) s k t phaseArrive

/-- PHASE_RELEASE: a team that waits at PHADV goes on (R308). -/
def execPhaseRelease (team : Nat) (s : State) : Result :=
  match s.team team with
  | none => .next s
  | some t =>
    let s := s.modGang t.gangKey Gang.settlePhase
    if t.stat == .running && !t.sys && t.waitOnly && t.phWait.isSome && t.trap.isNone && !t.launch.det &&
        s.phaseReady t then s.commit team t.phaseDone
    else .next s

end Sys2Proof.Machine
end

