-- ==== Sys2Proof/Machine/Gangs.lean ====
section
/-! DEFINITION. A gang leaves its cluster (spec/11 R257, spec/13 R299, R313 to R314, spec/16 R344): the end of its last team,
its save, the withdrawal of its windows, the gating of the cluster; stores on their way to a range that moves. -/

namespace Sys2Proof.Machine

/-- A gang keeps a cluster powered: it stands there, or one of its windows is being withdrawn there (R299). -/
def Gang.keeps (g : Gang) (cl : Nat) : Bool :=
  g.cluster.toNat == cl && (g.stat == .placed || g.stat == .resident || g.windows.any fun w => w.stat == .closing)

/-- A cluster that no gang keeps is power-gated, with its sub-arrays (R299). -/
def State.regate (s : State) (cl : Nat) : State :=
  if s.gangs.any fun e => e.2.keeps cl then s
  else
    (List.range 4).foldl (fun s n => s.modCore (4 * cl + n) fun c => { c with awake := false })
      (s.setCluster cl { s.cluster cl with powered := false })

/-- The stay of a gang on its cluster is counted (R342). -/
def State.countStay (s : State) (g : Gang) : State :=
  s.modGrid g.seq fun q => { q with residence := q.residence + (s.cycle.toNat - g.placedAt) }

/-- A pre-emption of a gang of a grid is counted (R342). -/
def State.countPreemption (s : State) (seq : Nat) : State :=
  s.modGrid seq fun q => { q with preemptions := q.preemptions + 1 }

/-- The scratchpad lines and accumulator bytes of a gang, and the rows set aside for it, are released (R202, R215, R257). -/
def Gang.release (g : Gang) : Gang := { g with pools := [], tiles := [], tilePoison := [], tileBlocked := [], aside := false }

/-- The windows of a departing gang, which are to be withdrawn (R313). -/
def Gang.closeWindows (g : Gang) : List Window :=
  g.windows.map fun w => { w with stat := if w.stat == .dormant then .dormant else .closing }

/-- A gang has a window that is not withdrawn. -/
def Gang.hasOpen (g : Gang) : Bool := g.windows.any fun w => w.stat != .dormant

/-- When a gang ends or is saved, the waiting offers are due again (R346). -/
def State.offerAgain (s : State) : State :=
  { s with
    gangs := s.gangs.map fun e => (e.1, { e.2 with again := e.2.waiting })
    grids := s.grids.map fun e => (e.1, { e.2 with again := e.2.waiting }) }

/-- A gang that ends gives up the capacity held for its migration (R356). -/
def State.dropMigration (s : State) (g : Nat) : State :=
  { s.modGang g fun gg => { gg with hold := none } with
    dies := s.dies.map fun e => (e.1, if e.2.migrating == some g then { e.2 with migrating := none } else e.2) }

/-- A gang whose teams have all ended, or all been saved, leaves its cluster: first its windows are withdrawn. A gang that
ends leaves nothing; a saved one keeps its placement record (R257, R262, R306, R313, R344), and its pre-emption counts where not all
of its teams took the trap (R342). -/
def State.settleGang (s : State) (g : Nat) : State :=
  match s.gang g with
  | none => s
  | some gg =>
    let mine := s.teams.filter fun e => e.2.gangKey == g && e.2.stat != .ended
    let cl := gg.cluster.toNat
    if gg.stat == .resident && gg.remaining.isEmpty then
      if gg.hasOpen then s.setGang g { gg with windows := gg.closeWindows }
      else
        (((s.setGang g { gg.release with stat := .ended, preq := none, windows := [] }).countStay gg).dropMigration
          g).offerAgain.regate cl
    else if gg.stat == .resident && !mine.isEmpty && mine.all (fun e => e.2.stat == .saved) then
      let s := if (gg.preq.any fun r => !r.taken) then s.countPreemption gg.seq else s
      let g' := { gg with
        stat := .saved, preq := none, waitSince := s.cycle.toNat, waiting := false, again := false
        windows := gg.closeWindows }
      ((s.setGang g (if gg.hasOpen then g' else g'.release)).countStay gg).offerAgain.regate cl
    else if gg.stat == .saved && !gg.hasOpen then
      if gg.remaining.isEmpty then
        ((s.setGang g { gg.release with stat := .ended, windows := [] }).dropMigration g).offerAgain.regate cl
      else (s.setGang g gg.release).offerAgain.regate cl
    else s

/-! ### Stores on their way (R188, R313) -/

/-- Move the locations that `f` names: queue entries of the cores that `cores` admits, which keep the tag under which they were
checked (R197), and private buffers of the teams that `teams` admits. What a peer has written counts at both places from then on
(R459). -/
def State.relocate (s : State) (cores : Nat → Bool) (teams : Team → Bool) (f : Loc → Option (Loc × Option Page)) : State :=
  let entry (q : QEntry) : QEntry :=
    match f q.loc with
    | some (l, p) =>
      { q with loc := l, page := p, tag := match q.loc, l with
          | .virt tag _, .pool .. => some tag
          | _, .pool .. => q.tag
          | _, .virt .. => none }
    | none => q
  let core (e : Nat × CoreRegs) : Nat × CoreRegs :=
    if cores e.1 then (e.1, { e.2 with queue := e.2.queue.map entry }) else e
  let team (e : Nat × Team) : Nat × Team :=
    if teams e.2 then (e.1, { e.2 with buf := e.2.buf.map entry }) else e
  let lines := s.fabric.peerLines
  let more := lines.filterMap fun l => (f l).map (·.1.line)
  { s with
    cores := s.cores.map core, teams := s.teams.map team
    fabric := { s.fabric with peerLines := lines ++ more.filter fun l => !lines.contains l } }

/-- Bytes are copied from the places that `f` names to those that it gives them: who wrote them last is, at these places, who wrote
them last there (R373); the places that `fresh` names are overwritten. -/
def State.copyMarks (s : State) (fresh : Loc → Bool) (f : Loc → Option Loc) : State :=
  if s.grids.all fun e => e.2.outside.isEmpty then s
  else
    let grid (e : Nat × Grid) : Nat × Grid :=
      (e.1, { e.2 with outside := (e.2.outside.filter fun l => !fresh l) ++ e.2.outside.filterMap f })
    { s with grids := s.grids.map grid }

/-- A virtual byte of a window as its pool byte (R311). -/
def Window.inward (w : Window) (g : Nat) : Loc → Option (Loc × Option Page)
  | .virt tag va =>
    if w.tag == tag && decide (w.base ≤ va) && decide (va < w.base + w.len) then
      some (.pool g w.group (w.off + (va - w.base)), none)
    else none
  | .pool .. => none

/-- The translation under which a line of a window goes home. -/
def Window.pageAt (w : Window) (va : Nat) : Option Page :=
  (Tab.find w.home ((va - w.base) / 128)).map fun l => l.page va

/-- A pool byte of a window as its virtual byte (R313 step 4). -/
def Window.outward (w : Window) (g : Nat) : Loc → Option (Loc × Option Page)
  | .pool g' grp off =>
    if g' == g && grp == w.group && decide (w.off ≤ off) && decide (off < w.off + w.len) then
      let va := w.base + (off - w.off)
      some (.virt w.tag va, w.pageAt va)
    else none
  | .virt .. => none

/-- The owner core's checked store queue still holds stores to a window (R313 step 2). -/
def State.ownerBusy (s : State) (g : Nat) (w : Window) : Bool :=
  match s.poolCore g w.group with
  | none => false
  | some c => (s.core c).queue.any fun e => (w.outward g e.loc).isSome

/-- The range of a window moves into its pool: with the scratchpad content, or, where `fill` is set, with its own (R311, R314). -/
def State.relocateIn (s : State) (g : Nat) (w : Window) (fill : Bool) : State :=
  let s := s.relocate (fun _ => true) (fun _ => true) (w.inward g)
  if fill then s.copyMarks (fun l => (w.inward g l).isSome || (w.outward g l).isSome) fun l => (w.inward g l).map (·.1)
  else s.copyMarks (fun l => (w.inward g l).isSome) fun _ => none

/-- The range of a window moves home with its content: what other cores hold for it is performed there. -/
def State.relocateOut (s : State) (g : Nat) (w : Window) : State :=
  (s.relocate (fun c => some c != s.poolCore g w.group) (fun t => t.gangKey != g) (w.outward g)).copyMarks
    (fun l => (w.inward g l).isSome) fun l => (w.outward g l).map (·.1)

end Sys2Proof.Machine
end

