-- ==== Sys2Proof/Machine/System.lean ====
section
/-! DEFINITION. The system family: MODE, NOP, YIELD, EXIT, TRAP, ERET, HALT, RMAP, FENCE, WAITC, RDC and reserved words
(spec/04 R121 to R126, spec/06 R171 to R175, spec/11 R254 to R258, spec/02 R63). -/

namespace Sys2Proof.Machine

def execNop (_f : SY) (s : State) : Result := issueScalar s (fun _ => []) fun k t => s.commit k t.retire

/-- YIELD: the core offers its other ready teams an issue slot before it selects the team again (R124), from its check on: the
core may select the team between the issue of YIELD and its check (DESIGN CHOICE, log 110). -/
def execYield (_f : SY) (s : State) : Result :=
  issueScalar s (fun _ => []) fun k t =>
    s.commit k { t.retire with yielded := some s.cycle, offered := [] }

/-- MODEI: MODE[15:0] (R121). -/
def execModei (f : SYI) (s : State) : Result :=
  issueScalar s (fun _ => []) fun k t =>
    s.commit k { t with mode := (t.mode &&& 0xFFFF0000) ||| f.i.setWidth 32 }.retire

/-- MODEW: MODE[21:0] (R121). -/
def execModew (f : SYS) (s : State) : Result :=
  issueScalar s (fun _ => [f.s.toNat]) fun k t =>
    s.commit k { t with mode := (t.sreg f.s.toNat).setWidth 32 &&& 0x3FFFFF }.retire

/-- MODER (R121). -/
def execModer (f : SYS) (s : State) : Result :=
  issueScalar s (fun _ => [f.s.toNat]) fun k t => s.commit k (t.setS f.s.toNat (t.mode.setWidth 64)).retire

/-- EXIT: the team issues nothing more (R39, R125, R304). A reported trap that is still pending, which only an EXIT in
system mode meets, is dropped and faults the grid with the reason that R125 gives a failure after EXIT: the spec is silent
on that case (DESIGN CHOICE, log 90). -/
def execExit (f : SY) (s : State) : Result :=
  issueScalar s (fun _ => []) fun k t =>
    if t.txstat.active then .next (s.raise k (t.misuse (wordOf (.exit f))))
    else
      let s := if t.reports.isEmpty then s else s.faultGrid t.seq 11
      .next ((s.setTeam k { t.retire.discardLog with stat := .exited, reports := [] }).leaveLive t)

/-- TRAP: the software trap, completed (R255). -/
def execTrap (f : SYI) (s : State) : Result :=
  issueScalar s (fun _ => []) fun k t => .next (s.raise k { t.at 0x07 (f.i.setWidth 64) with done := true })

/-! ### ERET and HALT -/

/-- The doublewords of the scalar block that ERET loads (R256, R263). -/
def scalarBlock : List Nat := List.range 74

/-- The scalar block as loaded: s, h, FKEY, FPFLAGS (R263). -/
def Team.loadBlock (t : Team) (v : Nat → W64) : Team :=
  { t with
    s := Vector.ofFn fun i : Fin 64 => v i
    h := Vector.ofFn fun i : Fin 8 => v (64 + i)
    fkey := (v 72).setWidth 32
    fpflags := (v 73).setWidth 32 &&& 0x1F
    saveinfo := t.saveinfo &&& ~~~4 }

/-- ERET's change of mode and resumption (R256). -/
def Team.resume (t : Team) : Team :=
  let t : Team := { t.discardLog with
    mode := t.trapmode.setWidth 32, sys := false, saving := false, inside := false, prog := t.progSaved, progSaved := {}
    yielded := if t.pipe.behind then none else t.yielded }
  if t.trapcause.getLsbD 8 then { t with pc := t.trappc.setWidth 48 + 4, pass := 0, waitOnly := false }
  else { t with pc := t.trappc.setWidth 48, pass := t.trappass.toNat, waitOnly := t.trapcause.getLsbD 9 }

/-- ERET (R256). -/
def execEret (f : SY) (s : State) : Result :=
  issueChecked s (fun _ => []) (fun t => t.systemOnly (.eret f)) fun k t =>
    if t.saveinfo.getLsbD 2 then
      let accs := scalarBlock.map fun i => ({ lane := 0, ea := t.saveptr + BitVec.ofNat 64 (8 * i) } : LaneAcc)
      match s.passStat k t false .load 8 accs with
      | .trap _ c ea => .next ((s.crossTrap t c ea).accessTrap k t (t.at c ea))
      | .wait ws fs => .next (s.askAll t ws fs)
      | .ready locs =>
        let v (i : Nat) : W64 := BitVec.ofNat 64 (s.teamRead t ((locs[i]?.map (·.2.1)).getD (.virt 0 0)) 8)
        .next (((s.crossLoads t (locs.map (·.2.1))).noteSeen k (locs.map (·.2.1)) 8).modTeam k fun t => (t.loadBlock v).resume)
    else s.commit k t.resume

/-- HALT (R257): saved after a pre-emption, else faulted, which releases holds (DESIGN CHOICE, log 105). It also lets the stores
that the team's loads have read become visible, so that what an acquire orders holds on another core (time only; log 101). -/
def execHalt (f : SY) (s : State) : Result :=
  issueChecked s (fun _ => []) (fun t => t.systemOnly (.halt f)) fun k t =>
    if !t.allZero || !((s.core t.core.toNat).standing (t.seen ++ t.acquired)).isEmpty then .next s
    else if t.trapcause.toNat % 256 == 0x08 && !t.saveinfo.getLsbD 2 then
      let t' := { t.discardLog with stat := .saved, rows := [], rowErr := [], saving := false, reserve := false }
      .next ((s.setTeam k t').settleGang t.gangKey)
    else
      let t' := { t.discardLog with stat := .stopped, reports := [] }
      .next ((((s.setTeam k t').releaseHolds k).leaveLive t).faultGrid t.seq 4)

/-- RMAP: the committed map of a register as a mask block (R258). -/
def execRmap (f : SYM) (s : State) : Result :=
  issueChecked s (fun t => t.blockFields f.s.toNat)
    (fun t => (trapIf (t.blockBeyond f.s.toNat) (t.illegal (wordOf (.rmap f)) 10)).or (t.systemOnly (.rmap f)))
    fun k t =>
      let v := (List.range t.words).foldl (fun n w =>
        if (t.row f.a.toNat w).isSome then n + (2 ^ 32 - 1) * 2 ^ (32 * w) else n) 0
      s.commit k (t.setBlock f.s.toNat v).retire

/-! ### Fences and counters -/

/-- FENCE (R174, R175, R227): a release or full fence at CLUSTER scope or wider waits for the core's queue; every fence has
the team's own AMOs behind it; an acquire at such a scope orders the stores that the team's loads have read before its
later stores (R222). -/
def execFence (f : SYF) (s : State) : Result :=
  issueScalar s (fun _ => []) fun k t =>
    if f.k != 1 && 2 ≤ f.o.toNat && !s.released k t then .next s
    else if s.amos.any fun a => a.team == k then .next s
    else if f.k != 2 && 2 ≤ f.o.toNat then s.commit k { t with acquired := (t.acquired ++ t.seen).eraseDups }.retire
    else s.commit k t.retire

/-- WAITC (R171): under DET a wait on an engine path parks the team (R361). -/
def execWaitc (f : SYC) (s : State) : Result :=
  issueScalar s (fun _ => [f.s.toNat]) fun k t =>
    let p : Fin 8 := ⟨f.p.toNat, f.p.isLt⟩
    if t.counter p ≤ (t.sreg f.s.toNat).toNat then s.commit k t.retire
    else if t.buffers && 3 ≤ f.p.toNat && f.p.toNat ≤ 5 then s.commit k { t with park := some .waitc }
    else .next s

/-- RDC (R172). -/
def execRdc (f : SYC) (s : State) : Result :=
  issueScalar s (fun _ => [f.s.toNat]) fun k t =>
    let p : Fin 8 := ⟨f.p.toNat, f.p.isLt⟩
    s.commit k ((t.detEvent 3 t.pc).setS f.s.toNat (BitVec.ofNat 64 (t.counter p))).retire

/-- A word that fails a check on the word alone: illegal instruction with its reason (R63, R64). -/
def execReservedEncoding (word : W32) (s : State) : Result :=
  issueChecked s (fun _ => [])
    (fun t => match decode word with
      | .ok _ => none
      | .error e => some (t.illegal word e.reason)) fun _ _ => .next s

end Sys2Proof.Machine
end

