-- ==== Sys2Proof/Machine/Transaction.lean ====
section
/-! DEFINITION. Lane transactions (spec/10 R235 to R246): TXBEGIN, TXEND, TXABORT, TXSTAT and the commit arbiter. -/

namespace Sys2Proof.Machine

/-- The participating lanes (R236): EffWord bits, or every lane without a guard. -/
def Team.participants (t : Team) : BitVec 1024 :=
  (List.range t.words).foldl (fun m w => m ||| (t.effWord w).setWidth 1024 <<< (32 * w)) 0

/-- The place of a team in the order of escalation: CYCLE, core, team (R242). -/
def State.escKey (s : State) (t : Team) : Nat := s.cycle.toNat * 4096 + t.core.toNat * 16 + t.num

/-- TXBEGIN's effect: checkpoint, participating lanes, escalation (R236, R242). -/
def State.begin (s : State) (t : Team) : Team :=
  let esc := 4 ≤ t.txstat.failrun.toNat
  let parts := t.participants
  { t with
    txstat := { t.txstat with reasons := 0, code := 0, active := true, esc := esc }
    escOrder := if esc then some (t.escOrder.getD (s.escKey t)) else none
    tx :=
      { parts := parts, live := parts, restart := t.pc, ckS := t.s, ckMode := t.mode, ckFkey := t.fkey
        ckRetired := t.retired, ckRows := t.rows, ckErr := t.rowErr, before := t.txstat, beforeAbPc := t.txabpc } }.retire

/-- TXBEGIN (R236, R243, R251). -/
def execTxbegin (f : SY) (s : State) : Result :=
  issueChecked s Team.guardRegs (fun t => trapIf t.guardBeyond (t.illegal (wordOf (.txbegin f)) 9)) fun k t =>
    if t.txstat.active || t.sys then .next (s.raise k (t.misuse (wordOf (.txbegin f))))
    else s.commit k (s.begin t)

/-- TXABORT: every live lane fails for USER (R241). -/
def execTxabort (f : SYA) (s : State) : Result :=
  issueScalar s (fun _ => []) fun k t =>
    if !t.txstat.active then .next (s.raise k (t.misuse (wordOf (.txabort f))))
    else
      let why := if t.tx.live == 0 then t.txstat.reasons else t.txstat.reasons ||| reasonUSER
      s.commit k { t with tx := { t.tx with live := 0 }, txstat := { t.txstat with reasons := why, code := f.i } }.retire

/-- The status word (R241). -/
def TxStatus.word (x : TxStatus) : W64 :=
  atBit x.lowfail.toNat 48 ||| atBit x.count.toNat 32 ||| atBit x.failrun.toNat 16 ||| atBit x.active.toNat 15 |||
    atBit x.esc.toNat 14 ||| atBit x.abort.toNat 13 ||| atBit x.reasons.toNat 8 ||| atBit x.code.toNat 0

/-- TXSTAT (R241). -/
def execTxstat (f : SYS) (s : State) : Result :=
  issueScalar s (fun _ => [f.s.toNat]) fun k t => s.commit k (t.setS f.s.toNat t.txstat.word).retire

/-! ### The commit (R239) -/

/-- A byte of a read set differs from the home value. -/
def State.stale (s : State) (r : TxRead) : Bool := !r.own && s.readLoc (s.locOf r.tag r.va) != r.value

/-- A write of team `k` to a line fails its lane at the commit: the line is held for another team, and not for one escalated
later than `k` is. R242 fails every such write, R44 and R246 let the team win that has been escalated first, which is taken
here; a team that is not escalated loses (DEDUCED, log 105). -/
def State.holdWins (s : State) (k : Nat) (t : Team) (tag : BitVec 16) (va : Nat) : Bool :=
  match s.holdOn tag va with
  | none => false
  | some h => h.team != k && !(t.holds && decide (t.escOrder.getD 0 < h.order))

/-- Teams escalated later than the committing team lose their holds on the lines that it writes: their lanes that have read
one fail at once (R242). -/
def State.overrideHolds (s : State) (k : Nat) (lines : List (BitVec 16 × Nat)) : State :=
  lines.foldl (fun s l =>
    match s.holdOn l.1 l.2 with
    | none => s
    | some h =>
      if h.team == k then s
      else { s.modTeam h.team fun u => u.loseHold h.tag h.line with holds := s.holds.filter (· != h) }) s

/-- A line that a commit cannot use, with the reason for which the lanes that use it fail (R238, R446; log 91). -/
abbrev Refused := BitVec 16 × Nat × BitVec 5

/-- The reasons for which lane `n` fails at validation, 0 where it commits: lines that are refused, a changed read, a write
to a line held for another team (R239, R242, R446). -/
def State.commitWhy (s : State) (k : Nat) (t : Team) (refused : List Refused) (n : Nat) : BitVec 5 :=
  let uses (r : Refused) : Bool :=
    (t.tx.reads.any fun x => x.lane == n && x.tag == r.1 && x.va / 128 * 128 == r.2.1) ||
      t.tx.writes.any fun x => x.lane == n && x.tag == r.1 && x.va / 128 * 128 == r.2.1
  let clash := (t.tx.reads.any fun r => r.lane == n && s.stale r) ||
    t.tx.writes.any fun w => w.lane == n && s.holdWins k t w.tag w.va
  (refused.filter uses).foldl (fun why r => why ||| r.2.2) (if clash then reasonCONFLICT else 0)

/-- The live lanes that fail at validation (R239). -/
def State.losers (s : State) (k : Nat) (t : Team) (refused : List Refused) : List Nat :=
  ((List.range t.lanes).filter (t.tx.live.getLsbD ·)).filter fun n => s.commitWhy k t refused n != 0

/-- How the lines of a transaction stand at its commit: all present, with those that are refused; or one must wait. -/
inductive Present where
  | ready (s : State) (refused : List Refused)
  | wait (s : State)
  deriving DecidableEq, Repr

/-- Make the lines of a transaction of team `k` present. A line whose walk faults waits, its fault recorded. A line that is
homed on a peer fails the lanes that use it for REMOTE (R446), one that is refused or declared fatal for CONFLICT: the spec
is silent on a commit whose translation has changed since its accesses (DESIGN CHOICE, log 91). Under DET a write to a line
held for a team of another grid waits for the release of the hold, so that no other grid's traffic fails a lane (R368, R372;
DEDUCED, log 105). -/
def State.presentLines (s : State) (k : Nat) (t : Team) : List (BitVec 16 × Nat × Bool) → List Refused → Present
  | [], bad => .ready s bad
  | (tag, va, store) :: rest, bad =>
    let need : Need := if store then .store else .load
    match s.reach (vaultTlb tag va) tag va need (!t.sys) false with
    | .ready s _ =>
      if store && !(s.planesOf tag va).isEmpty then .wait (s.invalidate tag va)
      else if store && t.launch.det && ((s.holdOn tag va).map (·.team != k)).getD false then .wait s
      else State.presentLines s k t rest bad
    | .protect => State.presentLines s k t rest ((tag, va, reasonCONFLICT) :: bad)
    | .peer s _ => State.presentLines s k t rest ((tag, va, reasonREMOTE) :: bad)
    | .fault _ =>
      if s.isFatal k tag va need then State.presentLines s k t rest ((tag, va, reasonCONFLICT) :: bad)
      else .wait (s.askWalk (t.walkFor k tag va need))
    | .held => .wait s

/-- The lines of the live lanes' read and write sets. -/
def Tx.lines (x : Tx) : List (BitVec 16 × Nat × Bool) :=
  (x.reads.filter (x.live.getLsbD ·.lane)).map (fun r => (r.tag, r.va / 128 * 128, false)) ++
    (x.writes.filter (x.live.getLsbD ·.lane)).map fun w => (w.tag, w.va / 128 * 128, true)

/-- The bytes that the lanes of a set write, by line, in program order. -/
def State.commitBytes (s : State) (x : Tx) (live : BitVec 1024) : List (Loc × List (Nat × Byte)) :=
  ((x.writes.filter fun w => live.getLsbD w.lane).map fun w => (s.locOf w.tag w.va, w.value)).foldl
    (fun l e =>
      let b := (e.1.inLine, e.2)
      if l.any fun x => x.1 == e.1.line then l.map fun x => if x.1 == e.1.line then (x.1, x.2 ++ [b]) else x
      else l ++ [(e.1.line, [b])]) []

/-- A row of which failed lanes take their checkpoint values, or 0 where the checkpoint had no row (R240). -/
def mixRow (cur : Row) (ck : Option Row) (failed : W32) : Row :=
  Vector.ofFn fun i : Fin 32 =>
    if failed.getLsbD i then ((ck.getD (Vector.replicate 32 0)).getD i 0) else cur.getD i 0

/-- The error marks of a team with those of the row `key` replaced (R401). -/
def Team.setMarks (t : Team) (key : Nat) (marks : List Nat) : Team :=
  { t with rowErr := t.rowErr.filter (· / 32 != key) ++ marks.filter (· / 32 == key) }

/-- One register and word that the transaction wrote or released (R240): its row and the error marks of each lane of it. The
row that comes back waits for no region row: R236 and R240 name no such wait (DESIGN CHOICE, log 104). -/
def Team.settleRow (t : Team) (failed : BitVec 1024) (key : Nat) (lanes : W32) : Team :=
  let bad : W32 := (failed >>> (32 * (key % 32))).setWidth 32
  let ck := Tab.find t.tx.ckRows key
  if bad == 0 then t
  else if lanes &&& ~~~bad == 0 then
    { t.setMarks key t.tx.ckErr with rows := match ck with
        | some r => Tab.put t.rows key r
        | none => Tab.erase t.rows key }
  else
    let cur := ((Tab.find t.rows key).or (Tab.find t.tx.deferred key)).getD (Vector.replicate 32 0)
    let marks := if (Tab.find t.rows key).isSome then t.rowErr else t.tx.deferredErr
    { t.setMarks key ((t.tx.ckErr.filter fun e => bad.getLsbD (e % 32)) ++ marks.filter fun e => !bad.getLsbD (e % 32)) with
      rows := Tab.put t.rows key (mixRow cur ck bad) }

/-- The outcome of TXEND at the team (R240): `done` are the lanes that committed, `why` the reasons seen. -/
def Team.outcome (t : Team) (d : Nat) (done : BitVec 1024) (why : BitVec 5) : Team :=
  let failed := t.tx.parts &&& ~~~done
  let t := t.tx.touched.foldl (fun t e => t.settleRow failed e.1 e.2) t
  let t := t.setBlock d done.toNat
  let run : BitVec 4 := if why &&& reasonCONFLICT == 0 then 0 else if t.txstat.failrun == 15 then 15 else t.txstat.failrun + 1
  { t with
    txstat :=
      { t.txstat with
        active := false, abort := false, reasons := why, failrun := run
        count := BitVec.ofNat 16 (popCount 1024 done.toNat), lowfail := lowestLane failed }
    escOrder := if 4 ≤ run.toNat then t.escOrder else none
    tx := {}, await := none }

/-- Validate and commit a request at one instant (R239, R240), unless a line must wait: whether it was performed. -/
def State.performCommit (s : State) (c : Commit) : Bool × State :=
  match s.team c.team with
  | none => (false, s)
  | some t =>
    match s.presentLines c.team t t.tx.lines [] with
    | .wait s => (false, s)
    | .ready s refused =>
      let lost := s.losers c.team t refused
      let seen := t.launch.det && t.tx.reads.any fun r =>
        !r.own && t.tx.live.getLsbD r.lane && s.outsideAt t.seq r.tag r.va 1
      let t := if seen then t.detEvent 5 (t.pc - 4) else t
      let done := lost.foldl (fun m n => m &&& ~~~(1#1024 <<< n)) t.tx.live
      let why := lost.foldl (fun why n => why ||| s.commitWhy c.team t refused n) t.txstat.reasons
      let bytes := s.commitBytes t.tx done
      let s := s.overrideHolds c.team
        ((t.tx.writes.filter fun w => done.getLsbD w.lane).map fun w => (w.tag, w.va / 128 * 128)).eraseDups
      let s := bytes.foldl (fun s e => s.landStore (t.core.toNat / 64) (some t.seq) none e.1 e.2) s
      let t := (t.outcome c.d.toNat done why).completeOp c.op
      let s : State := { s.setTeam c.team t with commits := s.commits.filter (· != c) }
      (true, (s.spendFatal c.team).releaseHolds c.team)

/-- TXEND as its check sends it: path TX is raised, the team awaits the status (R239). -/
def txendSend (f : SYS) (s : State) (k : Nat) (t : Team) : State :=
  let t' := { (t.startOp pathTX).retire with await := some (.txend f.s) }
  let c : Commit := { team := k, cluster := BitVec.ofNat 6 (t.core.toNat / 4), op := t.opSeq, d := f.s }
  State.arriveCommits { s.setTeam k t' with commits := s.commits ++ [c] }

/-- TXEND (R239, R243): under DET it waits for its serial slot (R368). -/
def execTxend (f : SYS) (s : State) : Result :=
  issueChecked s (fun t => t.blockFields f.s.toNat)
    (fun t => trapIf (t.blockBeyond f.s.toNat) (t.illegal (wordOf (.txend f)) 10)) fun k t =>
    if !t.txstat.active then .next (s.raise k (t.misuse (wordOf (.txend f))))
    else if !t.pathRoom pathTX then .next s
    else syncOp (.txend f) s k t (txendSend f)

/-- The escalation order of a request's team, if it is escalated. -/
def State.escOf (s : State) (c : Commit) : Option Nat :=
  (s.team c.team).bind fun t => if t.txstat.esc then t.escOrder else none

/-- The place of a request in the order of grants (R239): escalated teams in their order, then the others by the cycle in
which the request reached the arbiter, core and team. -/
def State.grantKey (s : State) (c : Commit) : List Nat :=
  match s.escOf c with
  | some a => [0, a]
  | none => [1, c.arrived.getD 0, (((s.team c.team).map (·.core.toNat)).getD 0), c.team % 16]

/-- Two requests whose sets overlap, one's writes with the other's reads or writes: they are performed one after the other
(R239). -/
def State.commitsOverlap (s : State) (a b : Commit) : Bool :=
  match s.team a.team, s.team b.team with
  | some t, some u =>
    let meets (x y : List (BitVec 16 × Nat × Bool)) : Bool :=
      x.any fun e => e.2.2 && y.any fun f => f.1 == e.1 && f.2.1 == e.2.1
    meets t.tx.lines u.tx.lines || meets u.tx.lines t.tx.lines
  | _, _ => false

/-- Perform the first request of `l`, in grant order, that need not wait for an earlier one or for a line. -/
def State.grantCommits (s : State) (before : List Commit) : List Commit → State
  | [] => s
  | c :: rest =>
    if before.any (s.commitsOverlap c) then State.grantCommits s (before ++ [c]) rest
    else
      match s.performCommit c with
      | (true, s) => s
      | (false, s) => State.grantCommits s (before ++ [c]) rest

/-- Requests sorted by a key. -/
def insertCommit (s : State) (c : Commit) : List Commit → List Commit
  | [] => [c]
  | d :: t => if lexLess (s.grantKey c) (s.grantKey d) then c :: d :: t else d :: insertCommit s c t

/-- TX_COMMIT: the cluster's arbiter grants its requests in order, and the next of them is performed (R239). -/
def execTxCommit (cluster : BitVec 6) (s : State) : Result :=
  let here := s.commits.filter fun c => c.cluster == cluster && c.arrived.isSome
  .next (s.grantCommits [] (here.foldr (insertCommit s) []))

end Sys2Proof.Machine
end

