-- ==== Sys2Proof/Machine/CoreEvents.lean ====
section
/-! DEFINITION. What a core does of itself (spec/08 R188, R191, R205, spec/16 R358, spec/18 R384 to R387): the choice of
the team that issues, checker-cache fills, the drain of the checked store queue, walks, the clock step. -/

namespace Sys2Proof.Machine

/-! ### Issue selection (R42, R124, R358) -/

/-- The instruction at which a team stands waits, as R42 counts waiting: a counter, a barrier, PHADV, the drain of HALT.
A wait at which a team of a DET grid parks is executed, so that it parks (R361), and an instruction that is misuse in a
transaction is executed, so that it traps (R243). -/
def State.waitsAt (s : State) (t : Team) : Instr → Bool
  | .waitc f =>
    decide ((t.sreg f.s.toNat).toNat < t.counter ⟨f.p.toNat, f.p.isLt⟩) &&
      !(t.buffers && 3 ≤ f.p.toNat && f.p.toNat ≤ 5)
  | .barwait f =>
    match Tab.find t.pend f.i.toNat with
    | none => false
    | some e => !t.txstat.active && !t.buffers && (s.frozenAt t f.i || !(s.settle t).markDone t f.i e)
  | .barsync f =>
    match Tab.find t.pend f.i.toNat with
    | none => !t.txstat.active && s.frozenAt t f.i
    | some e => !t.txstat.active && (s.frozenAt t f.i || (!t.buffers && t.waitOnly && !(s.settle t).markDone t f.i e))
  | .bararr f => !t.txstat.active && s.frozenAt t f.i
  | .bartest f => !t.txstat.active && s.frozenAt t f.i
  | .phadv _ => !t.buffers && t.waitOnly && !(s.modGang t.gangKey Gang.settlePhase).phaseReady t
  | .halt _ => t.sys && !t.allZero
  | _ => false

/-- The instruction at which a team stands waits. -/
def State.waitsHere (s : State) (k : Nat) (t : Team) : Bool :=
  match s.fetch k t with
  | .word w => ((decode w).toOption.map (s.waitsAt t)).getD false
  | _ => false

/-- A team is ready (R42): it does not wait, the word that it is to issue next is there, and nothing that R42 lists stalls
it. -/
def State.ready (s : State) (k : Nat) (t : Team) : Bool :=
  t.mayIssue && (t.dueReport.isSome || (!s.waitsHere k t && (match s.fetch k t.ahead with
    | .wait _ => false
    | .trap _ => true
    | .word w => !(((decode w).toOption.map (s.stalled k t)).getD false))))

/-- The teams that run on a core. -/
def State.runningOn (s : State) (core : Nat) : List (Nat × Team) :=
  s.teams.filter fun e => e.2.core.toNat == core && e.2.stat == .running

/-- The front end of a core asks for the lines of its teams' next words. -/
def State.askFetches (s : State) (core : Nat) : State :=
  (s.runningOn core).foldl (fun s e =>
    if e.2.mayIssue then
      match s.fetch e.1 e.2 with
      | .wait s' => s'
      | _ => s
    else s) s

/-- Placement time and team number: the order of age (R358). -/
def State.age (s : State) (t : Team) : List Nat := [((s.gang t.gangKey).map (·.placedAt)).getD 0, t.num, t.key]

/-- Core cycles for which a team has been ready without issuing (R358). -/
def State.waited (s : State) (t : Team) : Nat := ((t.readySince.map fun c => (s.cycle - c).toNat)).getD 0

/-- A team that has yielded stands back while another resident team of its core is ready that has not been offered a slot since,
for 64 cycles at most (R124), and no longer than it takes to be ready for 48, from which on R358 takes it first: so YIELD does
not lengthen the bound of R42. Both are counted from the check of YIELD (DESIGN CHOICE, log 110). -/
def State.standsBack (s : State) (k : Nat) (t : Team) : Bool :=
  match t.yielded with
  | none => false
  | some c =>
    decide ((s.cycle - c).toNat < 64) && decide (s.waited t < 48) &&
      (s.runningOn t.core.toNat).any fun e => e.1 != k && !t.offered.contains e.1 && s.ready e.1 e.2

/-- The team that a core selects among its ready teams (R358). -/
def State.choose (s : State) (l : List (Nat × Team)) : Option Nat :=
  let l := l.filter fun e => !s.standsBack e.1 e.2
  let late := l.filter fun e => 48 ≤ s.waited e.2
  let best :=
    if late.isEmpty then leastBy (fun e => (3 - e.2.launch.priority.toNat) :: s.age e.2) l
    else leastBy (fun e => (2 ^ 64 - s.waited e.2) :: s.age e.2) late
  best.map (·.1)

/-- Where the main pipeline goes on after the pass `w` of an instruction at `pc` (R181): the next pass of a per-lane
instruction, the next word, or the target that it predicts for a branch. -/
def Team.goesOn (t : Team) (u : Use) (pc : Addr) (w : Nat) (target : Option Addr) : Addr × Nat :=
  if u.lanes && w + 1 < t.words then (pc, w + 1) else ((if u.jump then target else none).getD (pc + 4), 0)

/-- The word of a fetch: none where the fetch traps. -/
def Fetched.word? : Fetched → Option W32
  | .word w => some w
  | _ => none

/-- The main pipeline issues a pass of a team where it stands in the team's program, speculatively, or skips one that it
predicts to be skipped (R181, R183); where the fetch traps the entry has no word, and its claim is a trap or none. -/
def State.logPass (s : State) (k : Nat) (t : Team) : Team :=
  match s.fetch k t.ahead with
  | .wait _ => t
  | fetched =>
    let (pc, w) := t.place
    let i := fetched.word?.bind fun word => (decode word).toOption
    let u := (i.map (useOf t)).getD {}
    let c := Config.claim s.freeIdx
    let e : LogEntry :=
      { pc := pc, word := fetched.word?, w := w, n := t.index, at_ := s.freeIdx, rows := u.staging, path := i.bind (s.raises t)
        claim := c }
    let to_ := t.goesOn u pc w c.next
    { t with pipe := { t.pipe with
        log := if u.lanes && c.mask == 0 then t.pipe.log else t.pipe.log ++ [e]
        next := some to_, count := if to_.2 == 0 then t.index + 1 else t.index, acted := true } }

/-- The teams among which the core's checker takes the next pass (R183): the one that issues, and those whose main pipeline
is ahead of it. -/
def State.toCheck (s : State) (core : Nat) (chosen : Option Nat) : List Nat :=
  chosen.toList ++ (((s.runningOn core).filter fun e =>
    !(e.2.pipe.log.isEmpty && e.2.atHead) && some e.1 != chosen).map (·.1))

/-- ISSUE_SELECTION: the core selects one ready team, which issues a pass (R183, R358); the checker takes the teams' passes in
any order, which a free value says. -/
def execIssueSelection (core : BitVec 8) (s : State) : Result :=
  let s := s.askFetches core.toNat
  let l := (s.runningOn core.toNat).filter fun e => s.ready e.1 e.2
  let chosen := s.choose l
  let check := s.toCheck core.toNat chosen
  let after (e : Nat × Team) : Nat × Team :=
    if e.2.core != core then e
    else
      let t := { e.2 with
        readySince := if l.any (·.1 == e.1) && chosen != some e.1 then e.2.readySince.or (some s.cycle) else none
        yielded := if chosen == some e.1 then none else e.2.yielded
        offered := if chosen == some e.1 || e.2.yielded.isNone then [] else e.2.offered ++ chosen.toList }
      (e.1, if chosen == some e.1 && t.dueReport.isNone then s.logPass e.1 t else t)
  .next { s with cur := check[Config.choice s.freeIdx % check.length]?, teams := s.teams.map after }

/-! ### The checker cache (R191) -/

/-- Lines pass from their homes to a core's die: those whose CRC check has failed twice (R435). -/
def State.crossAll (s : State) (die : Nat) : List Nat → List Nat × State
  | [] => ([], s)
  | key :: rest =>
    let (bad, s) := s.crossing die (BitVec.ofNat 16 (key / 2 ^ 41)) (key % 2 ^ 41 * 128)
    let (l, s) := State.crossAll s die rest
    (if bad then key :: l else l, s)

/-- CHECKER_CACHE_FILL: the wanted lines that L2 holds enter the checker cache of 512 lines, poisoned where their CRC check
between dies has failed twice (R435); the waiting pass is performed and judged when it issues again. -/
def execCheckerCacheFill (core : BitVec 8) (s : State) : Result :=
  let got := (s.core core.toNat).fills.filter fun k => (Tab.find s.lines k).isSome
  let (bad, s) := s.crossAll (core.toNat / 64) got
  let s := s.modCore core.toNat fun c =>
    let all := c.ckc.filter (fun k => !got.contains k) ++ got
    { c with ckc := all.drop (all.length - 512), fills := [], ckcBad := c.ckcBad.filter (fun k => !got.contains k) ++ bad }
  .next (got.foldl State.fitEntry s)

/-! ### The checked store queue (R188) -/

/-- The module that homes a virtual line, as its translation or its cached copy says. -/
def State.homeModule (s : State) (tag : BitVec 16) (va : Nat) (page : Option Page) : Nat :=
  match Tab.find s.lines (lineKey tag va) with
  | some l => l.pa / 2 ^ 52
  | none => (page.map fun p => p.pa / 2 ^ 52).getD s.fabric.fmod.toNat

/-- An entry's line is remote (R188). -/
def State.remoteEntry (s : State) (core : Nat) (e : QEntry) : Bool :=
  match e.loc with
  | .virt tag va => s.homeModule tag va e.page != s.fabric.fmod.toNat
  | .pool g grp _ => s.poolCore g grp != some core

/-- The closing window that holds an entry back at its owner (R313). -/
def State.closingAt (s : State) (core : Nat) (e : QEntry) : Bool :=
  match e.loc with
  | .virt .. => false
  | .pool g grp off =>
    s.poolCore g grp != some core && (match s.gang g with
      | none => false
      | some gg => gg.windows.any fun w =>
          w.stat == .closing && w.group == grp && decide (w.off ≤ off) && decide (off < w.off + w.len))

/-- An entry must wait: its line is held for another team (R242), peers hold copies (R447), its window closes (R313), an
older entry of its line is on its way, or a store that its team's acquire ordered before it is not yet visible (R222). -/
def State.entryBlocked (s : State) (core : Nat) (e : QEntry) : Bool :=
  s.heldFrom e.team e.loc || ((s.globalOf e.loc).any fun a => !(s.planesOf a.1 a.2).isEmpty) || s.closingAt core e ||
    (s.core core).queue.any fun x => (x.n < e.n && x.loc == e.loc) || e.after.contains x.n

/-- The entry that drains next (R188): the first not yet sent. -/
def State.nextEntry (s : State) (core : Nat) : Option QEntry := (s.core core).queue.find? fun e => !e.sent

/-- Remove an entry of a core's queue; its operation may have completed (R169), and the stores that a TXEND waits for may
all have drained (R239). -/
def State.dropEntry (s : State) (core : Nat) (e : QEntry) : State :=
  ((s.modCore core fun c => { c with queue := c.queue.filter fun x => x.n != e.n }).settleOp e.team e.op).arriveCommits

/-- The grid of a team. -/
def State.seqOf (s : State) (k : Nat) : Option Nat := (s.team k).map (·.seq)

/-- An entry's stores are performed, in the line that the core holds writable (R188); a transaction between dies whose CRC
check has failed twice leaves their granules poisoned (R435). -/
def State.acceptEntry (s : State) (core : Nat) (e : QEntry) : State :=
  ((s.obtainEntry core e true).landStore (core / 64) (s.seqOf e.team) (some core) e.loc e.bytes).dropEntry core e

/-- An entry drains (R188): into L1, to the owner's pool, or on its way to a peer, where it stays until accepted. A pool accepts it
in the same step, so that stores to several windows arrive in the order of the queue, one of the orders that R217 allows (DESIGN
CHOICE, log 118). -/
def State.drainEntry (s : State) (core : Nat) (e : QEntry) : State :=
  match e.loc with
  | .pool .. => s.acceptEntry core e
  | .virt tag va =>
    let peer := s.homeModule tag va e.page
    if peer != s.fabric.fmod.toNat then
      let s := s.modCore core fun c =>
        { c with queue := c.queue.map fun x => if x.n == e.n then { e with sent := true } else x }
      s.send { dest := BitVec.ofNat 12 peer, va := va, cls := if e.scalar then 0 else 2, team := some e.team
               grid := s.seqOf e.team, op := e.op, what := .store e.n e.bytes }
    else if (Tab.find s.lines (lineKey tag va)).isSome then s.acceptEntry core e
    else
      match e.page with
      | some p => (s.fillLine tag va p).acceptEntry core e
      | none =>
        match s.reach (vaultTlb tag va) tag va .store false false with
        | .ready s _ => s.acceptEntry core e
        | _ => s

/-- STORE_QUEUE_DRAIN: the next entry of the core's checked store queue drains (R188). -/
def execStoreQueueDrain (core : BitVec 8) (s : State) : Result :=
  match s.nextEntry core.toNat with
  | none => .next s
  | some e => .next (if s.entryBlocked core.toNat e then s.invalidateLoc e.loc else s.drainEntry core.toNat e)

/-! ### Walks (R384 to R387) -/

/-- The TLB at which a walk was wanted: the I/O die's, the fabric egress, or that of the vault controller (R384). -/
def State.walkTlb (s : State) (w : Walk) : Nat :=
  if w.source.toNat == srcFront then s.ioTlb else if w.egress then egressTlb else vaultTlb w.tag (128 * w.line)

def Walk.need (w : Walk) : Need := if w.fetch then .fetch else if w.write then .store else .load

/-- The line of a miss is requested under its page (R382). -/
def State.walkFill (s : State) (w : Walk) (p : Page) : State :=
  s.requestLine w.tag (128 * w.line) p (if w.scalar then 0 else 2) w.team w.grid

/-- TRANSLATION_WALK: the oldest pending miss is walked (R385): the line is requested under its page, a refusal goes
back to the access, a fault is recorded once for its page (R196, R391). A peer's line that is to be stored to needs its
translation alone. -/
def execTranslationWalk (s : State) : Result :=
  match s.walks with
  | [] => .next s
  | w :: rest =>
    let s := { s with walks := rest }
    let va := 128 * w.line
    let tlb := s.walkTlb w
    match s.translate tlb w.tag va w.need w.user w.ident with
    | (.page p, kept) =>
      let s := s.keepTlb tlb w.tag kept
      if w.write && p.pa / 2 ^ 52 != s.fabric.fmod.toNat then .next s
      else .next (s.walkFill w p)
    | (.protect, _) => .next s
    | (.fault r, _) => .next (if s.relia.faults.any w.sameFault then s else s.faultRecord w r)

/-! ### The clock step (R205) -/

/-- The registers after a window of 2^20 cycles. -/
def CoreRegs.endWindow (c : CoreRegs) : CoreRegs :=
  let n := min 255 (c.miscomp - c.windowBase).toNat
  let quiet := if n == 0 then c.quiet + 1 else 0
  let step :=
    if !c.adapt then c.step
    else if c.thresh.toNat < n && c.step < c.stepmax then c.step + 1
    else if 16 ≤ quiet && c.step != 0 then c.step - 1
    else c.step
  { c with misrate := BitVec.ofNat 8 n, windowBase := c.miscomp, quiet := quiet, step := step }

/-- A Beacon margin record (R260). -/
def State.marginRecord (s : State) (core : Nat) : State := s.beacon (srcCore core) 0x11 0 [(16, (s.core core).margin.toNat)]

/-- MARGIN_WINDOW: a window of 2^20 core cycles ends (R205). -/
def execMarginWindow (core : BitVec 8) (s : State) : Result :=
  let c := s.core core.toNat
  let s' := (s.setCore core.toNat c.endWindow).holdStep core.toNat
  .next (if c.step < (s'.core core.toNat).step then s'.marginRecord core.toNat else s')

end Sys2Proof.Machine
end

