-- ==== Sys2Proof/Machine/Digest.lean ====
section
/-! DEFINITION. SHAKE256, by which the journal digests packets (spec/22 R433, R437): the public standard FIPS 202, which
the spec names and does not restate (log 10). -/

namespace Sys2Proof.Machine

/-- Rotation offsets of ρ, at place x + 5y. -/
def keccakRot : List Nat :=
  [0, 1, 62, 28, 27, 36, 44, 6, 55, 20, 3, 10, 43, 25, 39, 41, 45, 15, 21, 8, 18, 2, 61, 56, 14]

/-- Round constants of ι. -/
def keccakRC : List W64 :=
  [0x0000000000000001, 0x0000000000008082, 0x800000000000808A, 0x8000000080008000, 0x000000000000808B,
   0x0000000080000001, 0x8000000080008081, 0x8000000000008009, 0x000000000000008A, 0x0000000000000088,
   0x0000000080008009, 0x000000008000000A] ++
  [0x000000008000808B, 0x800000000000008B, 0x8000000000008089, 0x8000000000008003, 0x8000000000008002,
   0x8000000000000080, 0x000000000000800A, 0x800000008000000A, 0x8000000080008081, 0x8000000000008080,
   0x0000000080000001, 0x8000000080008008]

/-- Lane (x, y) of a state of 25 lanes. -/
def lane (a : List W64) (x y : Nat) : W64 := a.getD (x % 5 + 5 * (y % 5)) 0

/-- A state from its lanes. -/
def lanes (f : Nat → Nat → W64) : List W64 := (List.range 25).map fun n => f (n % 5) (n / 5)

/-- One round: θ, ρ and π, χ, ι. -/
def keccakRound (a : List W64) (rc : W64) : List W64 :=
  let c (x : Nat) : W64 := lane a x 0 ^^^ lane a x 1 ^^^ lane a x 2 ^^^ lane a x 3 ^^^ lane a x 4
  let cs := (List.range 5).map c
  let t := lanes fun x y => lane a x y ^^^ cs.getD ((x + 4) % 5) 0 ^^^ (cs.getD ((x + 1) % 5) 0).rotateLeft 1
  let b := lanes fun x y =>
    let x' := (x + 3 * y) % 5
    (lane t x' x).rotateLeft (keccakRot.getD (x' + 5 * x) 0)
  let r := lanes fun x y => lane b x y ^^^ (~~~(lane b (x + 1) y) &&& lane b (x + 2) y)
  match r with
  | h :: tl => (h ^^^ rc) :: tl
  | [] => []

/-- Keccak-f[1600]. -/
def keccakF (a : List W64) : List W64 := keccakRC.foldl keccakRound a

/-- A block of 136 bytes XORed into a state and permuted. -/
def absorb (a : List W64) (block : List Byte) : List W64 :=
  keccakF (a.zipIdx.map fun e => if e.2 < 17 then e.1 ^^^ BitVec.ofNat 64 (leNat ((block.drop (8 * e.2)).take 8)) else e.1)

/-- The last block of a message: its remaining bytes, the SHAKE suffix and the closing bit. -/
def padBlock (m : List Byte) : List Byte :=
  let p := m ++ [0x1F#8] ++ List.replicate (135 - m.length) 0#8
  p.take 135 ++ [(p.getD 135 0) ||| 0x80#8]

/-- Absorb a message; `fuel` counts whole blocks. -/
def absorbAll : Nat → List W64 → List Byte → List W64
  | 0, a, m => absorb a (padBlock m)
  | n + 1, a, m => if m.length < 136 then absorb a (padBlock m) else absorbAll n (absorb a (m.take 136)) (m.drop 136)

/-- The first 32 bytes of SHAKE256. -/
def shake256 (m : List Byte) : List Byte :=
  ((absorbAll (m.length / 136) (List.replicate 25 0) m).take 4).flatMap fun w => leBytes 8 w.toNat

end Sys2Proof.Machine
end

