-- ==== Sys2Proof/Machine/Preempt.lean ====
section
/-! DEFINITION. Pre-emption (spec/11 R249, R261 to R267, spec/08 R201, spec/17 R369, R370, spec/16 R357): requests, their
deferral and forcing, the entry to the save routine, the restore entry. -/

namespace Sys2Proof.Machine

/-- SAVEINFO.REASON (R253). -/
def reasonCode : PreemptReason → Nat
  | .scheduler => 0
  | .migration => 1
  | .breaker => 2
  | .host => 3

/-- Core cycles in a microsecond at the nominal clock. -/
def usCycles : Nat := 4000

/-- The teams of a gang. -/
def State.teamsOf (s : State) (g : Nat) : List (Nat × Team) := s.teams.filter fun e => e.2.gangKey == g

/-- A gang's grid runs under DET. -/
def State.isDet (s : State) (g : Gang) : Bool := ((s.grid g.seq).map fun q => q.packet.flags.getLsbD 0).getD false

/-! ### Requests (R261) -/

/-- The smallest LIMIT among the cores that host a gang. -/
def State.limitOf (s : State) (g : Gang) : Nat :=
  (g.coreOf.map fun e => (s.core (4 * g.cluster.toNat + e.2)).preemptlim.toNat % 2 ^ 24).foldl min (2 ^ 24)

/-- Merge a request into a pending one: the earliest forcing time prevails, the first to arrive among equals; the breaker's is
recorded whenever it is present (R261). The LIMIT that then governs the overrun is that of the request that prevails: the spec
names none (DESIGN CHOICE, log 94). -/
def mergeRequest (old : Option PreemptReq) (new : PreemptReq) : PreemptReq :=
  match old with
  | none => new
  | some r =>
    let m := if new.deadline < r.deadline then { new with forced := r.forced, overrun := r.overrun } else r
    if new.reason == .breaker || r.reason == .breaker then { m with reason := .breaker } else m

/-- A gang stands on its cluster: its teams are resident, or about to start (R297). -/
def Gang.stands (g : Gang) : Bool := g.stat == .placed || g.stat == .resident

/-- A request for a gang is entered, and merged with one that is pending; after the trap has been taken it has no effect
(R261). -/
def State.enterRequest (s : State) (g : Nat) (reason : PreemptReason) : State :=
  s.modGang g fun gg =>
    if !gg.stands || (gg.preq.map (·.taken)).getD false then gg
    else
      let limit := s.limitOf gg
      let wait := if reason == .breaker then 0 else limit * usCycles
      { gg with
        rowBound := gg.rowBound || reason == .breaker
        preq := some (mergeRequest gg.preq { reason := reason, deadline := s.cycle.toNat + wait, limit := limit }) }

/-! ### Deferral (R261, R306, R250) -/

/-- An open episode has an arrival of one of `all`, and not those of all of `need`. -/
def Barrier.partly (b : Barrier) (all need : List Nat) : Bool :=
  (all.any fun n => b.arrivals.any (·.who == n)) && !(need.all fun n => b.arrivals.any (·.who == n))

/-- The barriers of a gang that are partly arrived, by id: an arrival of any team of the gang, ended or not, counts (R304),
and all live teams have to arrive; of the grid's barrier only the gang's own teams count (R306). -/
def State.partlyArrived (s : State) (g : Gang) : List Nat :=
  let all := g.groups.flatMap (·.2)
  let own := (List.range 16).filter fun i => (s.settleBarrier (g.barriers.getD i {}) g.live).partly all g.live
  match s.grid g.seq with
  | none => own
  | some q =>
    let ids (l : List Nat) : List Nat := l.map fun n => g.num * q.packet.teams + n
    if q.barrier.partly (ids all) (ids g.live) then own ++ [16] else own

/-- A trap of the team comes before its pre-emption: one that is decided, a report that is due at this boundary (R250), and one
that an AMO on its way can still take at its own address (R233; log 22). -/
def State.trapFirst (s : State) (k : Nat) (t : Team) : Bool := t.trap.isSome || t.dueReport.isSome || s.amoOut k

/-- A request is deferred. -/
def State.defers (s : State) (g : Nat) (gg : Gang) : Bool :=
  !(s.partlyArrived gg).isEmpty ||
    (s.teamsOf g).any fun e => e.2.stat == .running && (e.2.txstat.active || e.2.sys || s.trapFirst e.1 e.2)

/-! ### The trap of a pre-emption (R249, R262) -/

/-- The team after the abort of its transaction by a pre-emption or the breaker (R244): it stands at the restart point. A team
in system mode, in the handler of a cause 0x0C, is not interrupted (R266): it goes on in its handler, whose ERET returns to the
restart point; its registers return to the checkpoint at once, MODE in TRAPMODE (DEDUCED, log 111). -/
def Team.abortAt (t : Team) (pc : Addr) (silent : Bool) : Team :=
  let u := t.abortTx pc silent
  if t.sys then
    { u with
      mode := t.mode, trapmode := u.mode.setWidth 64, trappc := t.tx.restart.setWidth 64, trappass := 0
      trapcause := t.trapcause &&& ~~~0x300, prog := t.prog, progSaved := {} }
  else { u.discardLog with pc := t.tx.restart, pass := 0, waitOnly := false, rowWait := none, inside := false, await := none }

/-- The transaction of a team is aborted by a pre-emption or the breaker (R244): a TXEND under way is withdrawn. -/
def State.abortTeam (s : State) (k : Nat) (silent : Bool) : State :=
  match s.team k with
  | none => s
  | some t =>
    if !t.txstat.active then s
    else
      let pc := if t.sys then t.trappc.setWidth 48 else if t.await.isSome then t.pc - 4 else t.pc
      let abort (t : Team) : Team :=
        (t.paths[pathTX].foldl (fun t f => t.completeOp f.id) (if t.sys then t else t.closeWindow)).abortAt pc silent
      let s := if t.sys then s else s.closeOp k
      { (s.modTeam k abort).releaseHolds k with commits := s.commits.filter (·.team != k) }

/-- A team is to take the pre-emption trap: it names the next pass to act, the restart point of a transaction that is then
active (R244), and the wait of R265. -/
def State.preemptTeam (s : State) (k : Nat) : State :=
  let det := ((s.team k).map (·.launch.det)).getD false
  (((s.closeOp k).forgetFaults k).abortTeam k det).modTeam k fun t =>
    { t.closeWindow with
      park := none, rowWait := none, inside := false
      trap := some { cause := 0x08, pc := t.pc, pass := t.pass, waitOnly := t.waitOnly } }

/-- A team in its save routine, and not in that of its restore (SAVEINFO.RESTORE, R253). -/
def Team.inSave (t : Team) : Bool := t.saving && !t.saveinfo.getLsbD 2

/-- A running team has its pre-emption trap pending, or has taken it. -/
def Team.preempted (t : Team) : Bool := t.inSave || (t.trap.map (·.cause == 0x08)).getD false

/-- Every team of a gang that can takes the trap; the request has been taken once all have (R261, R266). -/
def State.takePreempt (s : State) (g : Nat) : State :=
  let s := (s.teamsOf g).foldl (fun s e =>
    if e.2.stat == .running && !e.2.sys && !s.trapFirst e.1 e.2 then s.preemptTeam e.1 else s) s
  let teams := (s.teamsOf g).filter fun e => e.2.stat == .running
  if !teams.isEmpty && teams.all (·.2.preempted) then
    let s := s.modGang g fun gg => { gg with preq := gg.preq.map fun r => { r with taken := true } }
    match s.gang g with
    | none => s
    | some gg => s.countPreemption gg.seq
  else s

/-- The pending request of a gang that is not yet taken. -/
def Gang.pendingReq (g : Gang) : Option PreemptReq := g.preq.filter fun r => !r.taken

/-- A team that would issue is to be pre-empted first: its gang's request is no longer deferred, which is taken at the
first such moment (R261), or has been forced and finds the team out of system mode (R266); a report of the team comes
before it (R250), and under DET the boundary takes one that the breaker has not forced (R369, R370). -/
def State.preemptDue (s : State) (t : Team) : Bool :=
  match s.gang t.gangKey with
  | none => false
  | some g =>
    match g.pendingReq with
    | none => false
    | some r =>
      g.stat == .resident && (if r.forced then !t.sys && !s.trapFirst t.key t else !t.launch.det && !s.defers t.gangKey g)

/-- PREEMPTION_ENTRY: a request that is not deferred, or has been forced, is taken (R261, R262); a DET grid's waits for its
boundary (R369), where the breaker's is forced (R370): teams that it left in system mode take it later (R266). -/
def execPreemptionEntry (gang : Nat) (s : State) : Result :=
  match s.gang gang with
  | none => .next s
  | some g =>
    match g.pendingReq with
    | none => .next s
    | some r =>
      if g.stat != .resident || (!r.forced && (s.isDet g || s.defers gang g)) then .next s else .next (s.takePreempt gang)

/-- At a boundary of its DET grid a request is taken when no team is in a transaction or in system mode (R369). -/
def State.boundaryPreempt (s : State) (g : Nat) : State :=
  match s.gang g with
  | none => s
  | some gg =>
    let busy := (s.teamsOf g).any fun e => e.2.stat == .running && (e.2.txstat.active || e.2.sys || s.trapFirst e.1 e.2)
    if gg.pendingReq.isNone || gg.stat != .resident || busy then s else s.takePreempt g

/-! ### Forcing (R266) -/

/-- Numbers as bits. -/
def bitSet (l : List Nat) : Nat := (List.range 64).foldl (fun n i => if l.contains i then n + 2 ^ i else n) 0

/-- A forced pre-emption (R266): its record, and the abort of the transactions. The record of a gang carries the source id of
the lowest core of its cluster: R260 does not say which core's (DESIGN CHOICE, log 95). -/
def State.forcePreempt (s : State) (g : Nat) (gg : Gang) (r : PreemptReq) : State :=
  let inTx := (s.teamsOf g).filter fun e => e.2.txstat.active
  let s := s.beacon (srcCore (4 * gg.cluster.toNat)) 0x13 0
    [(16, ((s.grid gg.seq).map (·.number.toNat)).getD 0), (24, gg.num), (32, reasonCode r.reason),
     (40, bitSet (s.partlyArrived gg)), (48, bitSet (inTx.map (·.2.num)))]
  let s := inTx.foldl (fun s e => s.abortTeam e.1 (s.isDet gg)) s
  s.modGang g fun gg => { gg with preq := gg.preq.map fun r => { r with forced := true } }

/-- A pending request whose forcing time has come is forced (R261, R266); under DET none is (R369). -/
def State.forceDue (s : State) (g : Nat) : State :=
  match s.gang g with
  | none => s
  | some gg =>
    match gg.pendingReq with
    | none => s
    | some r =>
      if s.isDet gg || r.forced || s.cycle.toNat < r.deadline || gg.stat != .resident then s
      else (s.forcePreempt g gg r).takePreempt g

/-- FORCED_PREEMPTION: the limit of a pending request has passed. -/
def execForcedPreemption (gang : Nat) (s : State) : Result := .next (s.forceDue gang)

/-- A pre-emption request for a gang arrives; the breaker's, and any under LIMIT 0, is forced at once (R261). -/
def State.requestPreempt (s : State) (g : Nat) (reason : PreemptReason) : State := (s.enterRequest g reason).forceDue g

/-- PREEMPTION_REQUEST (R261). -/
def execPreemptionRequest (gang : Nat) (reason : PreemptReason) (s : State) : Result := .next (s.requestPreempt gang reason)

/-- A write of PREEMPT (R357). -/
def State.writePreempt (s : State) (value : W64) : State :=
  let v := value.toNat
  if bitsOf v 15 13 != 0 then s
  else
    match s.grids.find? fun e => e.2.number.toNat == bitsOf v 11 0 && e.2.stat == .started with
    | none => s
    | some (seq, _) =>
      let named := s.gangs.filter fun e => e.2.seq == seq && (v.testBit 12 || e.2.num == bitsOf v 63 16)
      named.foldl (fun s e => s.requestPreempt e.1 .host) s

/-- PREEMPT: the host's write (R357). -/
def execPreempt (value : W64) (s : State) : Result := .next (if s.registersOpen then s.writePreempt value else s)

/-- SYSTEM_MODE_OVERRUN: a team is in system mode LIMIT after the forced point (R266). -/
def execSystemModeOverrun (team : Nat) (s : State) : Result :=
  match s.team team with
  | none => .next s
  | some t =>
    match (s.gang t.gangKey).bind Gang.pendingReq with
    | none => .next s
    | some r =>
      if !r.forced || !t.sys || t.inSave || t.stat != .running || r.overrun.contains t.num ||
          s.cycle.toNat < r.deadline + r.limit * usCycles then .next s
      else
        let s := s.beacon (srcCore t.core.toNat) 0x14 0
          [(16, t.launch.number.toNat), (24, t.gang), (32, t.num), (40, t.pc.toNat)]
        .next (s.modGang t.gangKey fun g => { g with preq := g.preq.map fun r => { r with overrun := t.num :: r.overrun } })

/-! ### The entry (R262, R263) -/

/-- The team is the lowest-numbered of its gang on its core (SAVEINFO.CORELEAD, R253), counting those that are still live: R253
does not say whether one that has ended counts (DESIGN CHOICE, log 108). -/
def Gang.leads (g : Gang) (t : Team) : Bool :=
  ((Tab.find g.groups t.group).getD []).all fun n => !g.live.contains n || decide (t.num ≤ n)

/-- SAVEINFO at the entry (R253). -/
def Gang.saveInfo (g : Gang) (t : Team) (r : PreemptReq) : W64 :=
  BitVec.ofNat 64 (reasonCode r.reason * 2 ^ 16 + (if g.rowBound then 8 else 0) + (if g.leads t then 2 else 0) +
    (if r.forced then 1 else 0))

/-- The scalar block (R263). -/
def Team.blockBytes (t : Team) : List Byte :=
  let words := t.s.toList ++ t.h.toList ++ [t.fkey.setWidth 64, t.fpflags.setWidth 64, t.trapmode]
  words.flatMap (fun w => leBytes 8 w.toNat) ++ List.replicate (1024 - 600) 0

/-- Barrier units freeze once every team of a forced gang has entered the trap (R266). -/
def State.freeze (s : State) (g : Nat) : State :=
  s.modGang g fun gg =>
    if (gg.preq.map (·.forced)).getD false &&
        (s.teamsOf g).all (fun e => e.2.stat != .running || e.2.inSave) then { gg with frozen := true } else gg

/-- The pre-emption entry: the records, SAVEINFO, the scalar block as eight checked stores, the save routine (R262, R263).
It waits for the lines of the block, which no other team may hold (R242), and for the queue; a refused block is a cause in system mode (R251). -/
def State.enterSave (s : State) (k : Nat) (t : Team) (r : TrapRec) : State :=
  match s.gang t.gangKey with
  | none => s
  | some g =>
    let t' : Team :=
      { t.enterTrap r (s.vector t 0) with
        saving := true, saveinfo := ((g.preq.map (g.saveInfo t)).getD 0) }
    let accs := (List.range 8).map fun i => ({ lane := i, ea := t.saveptr + BitVec.ofNat 64 (128 * i) } : LaneAcc)
    match s.passStat k t' false .store 8 accs with
    | .wait ws fs => s.askAll t' ws fs
    | .trap _ c _ => ((if c == 0x04 then s.spendFatal k else s).setTeam k t').doubleTrap k t' c t'.pc
    | .ready locs =>
      if !(s.core t.core.toNat).queueRoom 8 || locs.any (fun e => s.heldFrom k e.2.1) then s
      else
        let bytes := t'.blockBytes
        let es := locs.map fun e =>
          ({ team := k, path := 1, op := t'.opSeq, loc := e.2.1.line, page := e.2.2
             tag := windowTag (t.asid.setWidth 16) (t.saveptr.toNat + 128 * e.1) e.2.1
             bytes := (List.range 128).map fun i => (i, bytes.getD (128 * e.1 + i) 0) } : QEntry)
        (s.checkStores k (t'.startOp pathSTG) es).freeze t.gangKey

/-- TRAP_ENTRY: the paths of a team whose trap is decided have drained (R249): 0, 1, 2 and 6, for a pre-emption all. -/
def execTrapEntry (team : Nat) (s : State) : Result :=
  match s.team team with
  | none => .next s
  | some t =>
    match t.trap with
    | none => .next s
    | some r =>
      if t.stat != .running || !t.drained then .next s
      else if r.cause == 0x08 then
        if t.allZero && t.await.isNone then .next (s.enterSave team t r) else .next s
      else .next (s.takeTrap team t r)

/-! ### The restore entry (R267) -/

/-- A team at its restore entry. -/
def Team.restored (t : Team) (lead : Bool) (base : Addr) : Team :=
  { t with
    stat := .running, sys := true, mode := 2, rows := [], rowErr := []
    s := Vector.replicate 64 0, h := Vector.replicate 8 0, fkey := 0, fpflags := 0
    saveinfo := (t.saveinfo &&& ~~~6) ||| (if lead then 6 else 4)
    pc := base + 0x7C0, pass := 0, waitOnly := false, openOp := none, saving := true, park := none, rowWait := none
    inside := false
    prog := {} }

/-- RESTORE_ENTRY: a team of a saved gang that has been placed again starts (R267). -/
def execRestoreEntry (team : Nat) (s : State) : Result :=
  match s.team team with
  | none => .next s
  | some t =>
    match s.gang t.gangKey with
    | none => .next s
    | some g =>
      if g.stat != .resident || t.stat != .saved then .next s
      else .next (s.setTeam team (t.restored (g.leads t) (s.vector t 0)))

/-! ### The deadlock breaker (R201, R244, R370) -/

/-- The gang most recently placed on a core (R201), one with rows set aside for it apart (R202). Of gangs placed in the same
cycle it is the one with the highest gang key: R201 names none (DESIGN CHOICE, log 93). -/
def State.lastPlaced (s : State) (core : Nat) : Option Nat :=
  let here := s.gangs.filter fun e => e.2.stat == .resident && !e.2.aside &&
    (s.teamsOf e.1).any fun x => x.2.stat == .running && x.2.core.toNat == core
  (leastBy (fun e => [2 ^ 64 - e.2.placedAt, 2 ^ 64 - e.1]) here).map (·.1)

/-- The teams of a core that wait for a row or a retention line (R201). -/
def State.rowWaiters (s : State) (core : Nat) : List (Nat × Team) :=
  s.teams.filter fun e => e.2.core.toNat == core && e.2.stat == .running && s.rowStalled e.2

/-- The teams of a DET grid on the core that are stalled for a row end their quanta, each with one code 7, and the breaker acts
at the boundary that follows (R370). -/
def State.parkStalled (s : State) (core seq : Nat) : State :=
  let stalled := (s.rowWaiters core).filter fun e => e.2.seq == seq && e.2.park != some .breaker
  (stalled.foldl (fun s e => s.setTeam e.1 { e.2.detEvent 7 e.2.pc with park := some .breaker }) s).modGrid seq
    fun q => { q with breaker := insertNat core q.breaker }

/-- The breaker's action on the gang placed last on a core (R201): it is counted, recorded, and the gang is pre-empted by
force at once, row-bound (R202); a DET grid's too, whose boundary this then is (R370). -/
def State.breakGang (s : State) (core g : Nat) (gg : Gang) : State :=
  let s := s.modCore core fun c => { c with brkcnt := c.brkcnt + 1 }
  let s := s.beacon (srcCore core) 0x15 0
    [(16, ((s.grid gg.seq).map (·.number.toNat)).getD 0), (24, gg.num), (32, core)]
  let s := s.enterRequest g .breaker
  match (s.gang g).bind fun gg => gg.pendingReq with
  | none => s
  | some r => (if r.forced then s else s.forcePreempt g gg r).takePreempt g

/-- What the breaker does on a core, at a boundary of the DET grid `seq` for its teams: the transactions of the teams that wait
for rows are aborted; where there is none, the gang placed last is pre-empted (R201, R244). A team or gang of another DET
grid is left to that grid's boundary (R370). -/
def State.breakDeadlock (s : State) (core : Nat) (seq : Option Nat) : State :=
  let inTx := (s.rowWaiters core).filter fun e => e.2.txstat.active
  let act (s : State) (q : Nat) (det : Bool) (f : State → State) : State :=
    if det && some q != seq then s.parkStalled core q else f s
  if !inTx.isEmpty then
    inTx.foldl (fun s e => act s e.2.seq e.2.launch.det fun s => s.abortTeam e.1 e.2.launch.det) s
  else
    match s.lastPlaced core with
    | none => s
    | some g =>
      match s.gang g with
      | none => s
      | some gg => act s gg.seq (s.isDet gg) fun s => s.breakGang core g gg

/-- DEADLOCK_BREAKER: no team of the core has issued or checked a pass for 4,096 cycles and one waits for a row (R201). -/
def execDeadlockBreaker (core : BitVec 8) (s : State) : Result :=
  let idle := (s.cycle - (s.core core.toNat).actedAt).toNat
  .next (if (s.rowWaiters core.toNat).isEmpty || idle < 4096 then s else s.breakDeadlock core.toNat none)

end Sys2Proof.Machine
end

