-- ==== Sys2Proof/Machine/Place.lean ====
section
/-! DEFINITION. Lamplighter (spec/16 R346, R347, R351 to R357, with spec/08 R202, spec/09 R209 to R216, spec/13 R297 to
R299, spec/18 R397): whether a cluster takes a gang, which it goes to, and the offers of the front end. -/

namespace Sys2Proof.Machine

/-! ### Partitions (R209, R212) -/

/-- REG and ACC of a partition word, REG 0 read as 8. -/
def partReg (w : BitVec 32) : Nat := if w.toNat % 64 == 0 then 8 else w.toNat % 64
def partAcc (w : BitVec 32) : Nat := w.toNat / 256 % 64
/-- NS: the sets of the cache region that a word defines. -/
def partSets (w : BitVec 32) : Nat := setsOf (partReg w) (partAcc w)
/-- Two words are the same (R211). -/
def samePart (v w : BitVec 32) : Bool := partReg v == partReg w && partAcc v == partAcc w

/-! ### What stands on the clusters -/

/-- A gang that stands on a cluster, or for which capacity is held there. -/
structure Standing where
  key : Nat
  plan : Plan
  packet : Packet
  remaining : List Nat
  /-- rows are set aside for it (R202) -/
  aside : Bool
  deriving DecidableEq, Repr

/-- The placement of a gang that is placed or resident. -/
def Gang.plan (g : Gang) : Plan := { cluster := g.cluster, groups := g.groups, coreOf := g.coreOf, bases := g.bases }

/-- Everything that stands, but for the gangs in `skip` (R353, R356). -/
def State.standings (s : State) (skip : List Nat) : List Standing :=
  s.gangs.flatMap fun e =>
    if skip.contains e.1 then []
    else
      let p := ((s.grid e.2.seq).map (·.packet)).getD {}
      let mk (aside : Bool) (q : Plan) : Standing :=
        { key := e.1, plan := q, packet := p, remaining := e.2.remaining, aside := aside }
      (if e.2.stat == .placed || e.2.stat == .resident then [mk e.2.aside e.2.plan] else []) ++
        (e.2.hold.map (mk e.2.rowBound)).toList

/-- The teams of a placement on core position `n` of its cluster. -/
def Plan.teamsOn (p : Plan) (n : Nat) : List Nat :=
  p.groups.flatMap fun e => if Tab.find p.coreOf e.1 == some n then e.2 else []

/-- A standing gang's teams on a core that have not ended. -/
def Standing.on (x : Standing) (core : Nat) : List Nat :=
  if x.plan.cluster.toNat == core / 4 then (x.plan.teamsOn (core % 4)).filter (x.remaining.contains ·) else []

/-- A standing gang occupies a core: with teams, or with accumulator bytes, which lie on all four cores (R298). -/
def Standing.occupies (x : Standing) (core : Nat) : Bool :=
  x.plan.cluster.toNat == core / 4 && (x.packet.accb != 0 || !(x.plan.teamsOn (core % 4)).isEmpty)

/-- Teams on a core. -/
def loadOf (l : List Standing) (core : Nat) : Nat := l.foldl (fun n x => n + (x.on core).length) 0

/-! ### Dealing (R352) -/

/-- The vault above a core (R377). -/
def State.vaultOf (s : State) (core : Nat) : Vault := (Tab.find (s.die (core / 64)).vaults (core % 64)).getD {}

/-- The cores of a cluster in ascending measured T. -/
def State.coreOrder (s : State) (cl : Nat) : List Nat :=
  let t (n : Nat) : Nat := ((s.vaultOf (4 * cl + n)).temp + 2 ^ 20).toNat
  let order (n : Nat) : Nat := ([0, 1, 2, 3].filter fun m => lexLess [t m, m] [t n, n]).length
  (List.range 4).flatMap fun i => [0, 1, 2, 3].filter fun n => order n == i

/-- The next place in a cycle of four whose core has room for `n` teams. -/
def nextRoom (order : List Nat) (load : Nat → Nat) (n at_ : Nat) : Option Nat :=
  ((List.range 4).map fun i => (at_ + i) % 4).find? fun i => load (order.getD i 0) + n ≤ 16

/-- Deal teams in ascending number, cycling through the cores and skipping a full one. -/
def dealTeams (order : List Nat) (load : Nat → Nat) : Nat → List Nat → List (Nat × Nat) → Option (List (Nat × Nat))
  | _, [], acc => some acc
  | at_, t :: rest, acc =>
    let now (c : Nat) : Nat := load c + (acc.filter (·.2 == c)).length
    match nextRoom order now 1 at_ with
    | none => none
    | some i => dealTeams order load (i + 1) rest (acc ++ [(t, order.getD i 0)])

/-- Deal groups whole, each to the next core that can take it (R298). -/
def dealGroups (order : List Nat) (load : Nat → Nat) : Nat → List (Nat × List Nat) → Option (Tab Nat)
  | _, [] => some []
  | at_, g :: rest =>
    match ((List.range (4 - at_)).map (at_ + ·)).find? fun i => load (order.getD i 0) + g.2.length ≤ 16 with
    | none => none
    | some i => (dealGroups order load (i + 1) rest).map fun t => Tab.put t g.1 (order.getD i 0)

/-- The groups of a first placement: the teams of each core, under its number. -/
def dealtGroups (deal : List (Nat × Nat)) : Tab (List Nat) :=
  [0, 1, 2, 3].filterMap fun c =>
    let l := (deal.filter (·.2 == c)).map (·.1)
    if l.isEmpty then none else some (c, l)

/-- Assign a gang's teams to the cores of a cluster (R352): none where they do not fit (R297). -/
def State.assign (s : State) (g : Gang) (teams : Nat) (l : List Standing) (cl : Nat) : Option Plan :=
  let order := s.coreOrder cl
  let load (c : Nat) : Nat := loadOf l (4 * cl + c)
  if g.stat == .unplaced then
    (dealTeams order load 0 (List.range teams) []).map fun d =>
      let gs := dealtGroups d
      { cluster := BitVec.ofNat 6 cl, groups := gs, coreOf := gs.map fun e => (e.1, e.1) }
  else
    let left := (g.groups.map fun e => (e.1, e.2.filter (g.remaining.contains ·))).filter fun e => !e.2.isEmpty
    let low (e : Nat × List Nat) : Nat := e.2.foldl min 16
    let sorted := (List.range 16).flatMap fun n => left.filter fun e => low e == n
    (dealGroups order load 0 sorted).map fun c => { cluster := BitVec.ofNat 6 cl, groups := g.groups, coreOf := c }

/-! ### Pinned lines (R214) -/

/-- A base keeps every set at 7 pinned ways or fewer. -/
def baseFits (ns : Nat) (others : List (Nat × Nat)) (n b : Nat) : Bool :=
  (List.range ns).all fun k => others.foldl (fun m o => m + pinsAt ns o.1 o.2 k) (pinsAt ns b n k) ≤ 7

/-- A base for `n` lines: the first that fits from a free start on. -/
def findBase (ns : Nat) (others : List (Nat × Nat)) (n start : Nat) : Option Nat :=
  ((List.range ns).map fun i => (start + i) % ns).find? (baseFits ns others n)

/-- The pinned lines of a core, by base and number. -/
def pinsOn (l : List Standing) (core : Nat) : List (Nat × Nat) :=
  l.filterMap fun x =>
    if x.plan.cluster.toNat != core / 4 || (x.plan.teamsOn (core % 4)).isEmpty then none
    else some ((Tab.find x.plan.bases (core % 4)).getD 0, x.packet.lines)

/-- Core positions that a placement's teams take. -/
def Plan.cores (p : Plan) : List Nat := [0, 1, 2, 3].filter fun n => !(p.teamsOn n).isEmpty

/-- The bases of a placement on its cores; none where a core has none (R214). -/
def State.basesFor (s : State) (l : List Standing) (k : Packet) (p : Plan) : List Nat → Option (Tab Nat)
  | [] => some []
  | n :: rest =>
    if k.lines == 0 then s.basesFor l k p rest
    else
      match findBase (partSets k.partition) (pinsOn l (4 * p.cluster.toNat + n)) k.lines (Config.choice (s.freeIdx + n)),
          s.basesFor l k p rest with
      | some b, some t => some ((n, b) :: t)
      | _, _ => none

/-! ### The judgement (R353) -/

/-- What a cluster says to a gang. -/
inductive Verdict where
  | ok (p : Plan) (worst : Int)
  | full
  | refused
  deriving DecidableEq, Repr

/-- d(v, core) of R352. -/
def coefIndex (v c : Nat) : Nat := if v == c then 0 else if v / 4 == c / 4 then 1 else if v / 16 == c / 16 then 2 else 3

/-- Tpred of the die's vaults (R352). -/
def State.predicted (s : State) (k : Packet) (g : Gang) (p : Plan) (v : Nat) : Int :=
  let cl := p.cluster.toNat
  let w := (s.die (cl / 16)).coef.getD (k.power % 8) 0
  (List.range 4).foldl (fun (t : Int) n =>
    let teams := ((p.teamsOn n).filter fun x => g.stat == .unplaced || g.remaining.contains x).length
    t + ((teams * bitsOf w.toNat (16 * coefIndex v (4 * cl % 64 + n) + 15) (16 * coefIndex v (4 * cl % 64 + n)) : Nat) : Int))
    (s.vaultOf (64 * (cl / 16) + v)).temp

/-- The refresh step that a temperature gives on a rise (R351). -/
def stepAt (t : Int) : Nat := if 420 < t then 3 else if 380 < t then 2 else if 340 < t then 1 else 0

/-- Bandwidth lost at a step, in percent (R351). -/
def stepLoss (n : Nat) : Nat := [3, 6, 12, 12].getD n 12

/-- Capacity of a vault at a step, in GB/s × 100 (R353). -/
def vaultCapacity (n : Nat) : Nat := if n == 3 then 6400 else 256 * (100 - stepLoss n)

/-- Free rows on a core that a row-bound gang can set aside (R202). -/
def State.freeRows (s : State) (l : List Standing) (core : Nat) (k : Packet) : Nat :=
  let aside := l.foldl (fun n x => if x.aside then n + (x.on core).length * 128 * (2 ^ x.packet.lanesLog / 32) else n) 0
  let used := s.teams.foldl (fun n e =>
    if e.2.core.toNat == core && e.2.stat != .saved && !s.isAside e.2 then n + e.2.rows.length else n) 0
  512 * partReg k.partition - aside - used

/-- The quadrant of a cluster on its die. -/
def quadrantOf (cl : Nat) : Nat := cl % 16 / 4

def State.railOf (s : State) (cl : Nat) : Rail := (s.die (cl / 16)).rails.getD (quadrantOf cl) {}

/-- The teams of a gang to be placed: all of them the first time, afterwards those that have not ended. -/
def Gang.toPlace (g : Gang) (teams : Nat) : List Nat := if g.stat == .unplaced then List.range teams else g.remaining

/-- The bandwidth above a core at a temperature does not suffice for a gang more (R353). -/
def bandShort (l : List Standing) (k : Packet) (core : Nat) (t : Int) : Bool :=
  let used := l.foldl (fun m x => if (x.on core).isEmpty then m else m + x.packet.vdemand) 0
  vaultCapacity (stepAt t) < 400 * (used + k.vdemand)

/-- A core hosts a gang with another partition word (R211). -/
def partClash (l : List Standing) (k : Packet) (core : Nat) : Bool :=
  l.any fun x => x.occupies core && !samePart x.packet.partition k.partition

/-- A cluster is refused whatever cores the gang's teams would take there (R211, R216, R353, R397). -/
def State.refusesAny (s : State) (l : List Standing) (k : Packet) (cl : Nat) : Bool :=
  let cores := [0, 1, 2, 3].map (4 * cl + ·)
  let here := l.filter fun x => x.plan.cluster.toNat == cl
  (if k.accb == 0 then cores.all (partClash l k) else cores.any (partClash l k)) ||
    (k.accb != 0 && partAcc k.partition * 65536 < here.foldl (fun n x => n + x.packet.accb) k.accb) ||
    (s.railOf cl).phok < 8 || ((List.range 64).any fun v => 420 < (s.vaultOf (64 * (cl / 16) + v)).temp) ||
    cores.all fun c => bandShort l k c (s.vaultOf c).temp

/-- A cluster is refused on a plan that finds room for the teams (R202, R211, R353). -/
def State.refusesPlan (s : State) (l : List Standing) (g : Gang) (k : Packet) (p : Plan) : Bool :=
  let core (n : Nat) : Nat := 4 * p.cluster.toNat + n
  let mine := if k.accb == 0 then p.cores else [0, 1, 2, 3]
  let teams (n : Nat) : Nat := ((p.teamsOn n).filter ((g.toPlace k.teams).contains ·)).length
  s.refusesAny l k p.cluster.toNat || (mine.any fun n => partClash l k (core n)) ||
    (g.rowBound && p.cores.any fun n => s.freeRows l (core n) k < teams n * 128 * (2 ^ k.lanesLog / 32)) ||
    ((List.range 64).any fun v => 420 < s.predicted k g p v) ||
    p.cores.any fun n => bandShort l k (core n) (s.predicted k g p (core n % 64))

/-- What Lamplighter says of a gang on a cluster (R352, R353): full where only room for its teams, or for one more gang, is
lacking (R297, R299), else refused or taken. Where there is no room for the teams, the grounds that hold on whatever cores
they would take count (DEDUCED, log 100); groups that cannot be dealt whole though the teams have room are refused. -/
def State.judge (s : State) (key : Nat) (g : Gang) (k : Packet) (skip : List Nat) (cl : Nat) : Verdict :=
  let l := s.standings (key :: skip)
  let room := ([0, 1, 2, 3].map fun n => 16 - loadOf l (4 * cl + n)).sum
  match s.assign g k.teams l cl with
  | none => if s.refusesAny l k cl || (g.toPlace k.teams).length ≤ room then .refused else .full
  | some p =>
    if s.refusesPlan l g k p then .refused
    else
      match s.basesFor l k p p.cores with
      | none => .refused
      | some b =>
        if 64 ≤ (l.filter fun x => x.plan.cluster.toNat == cl).length then .full
        else
          .ok { p with bases := b }
            (((List.range 4).map fun n => s.predicted k g p ((4 * cl + n) % 64)).foldl max (s.predicted k g p (4 * cl % 64)))

/-- The clusters of a die with what they say. -/
def State.verdicts (s : State) (key : Nat) (g : Gang) (k : Packet) (skip : List Nat) (die : Nat) : List (Nat × Verdict) :=
  (List.range 16).map fun i => (16 * die + i, s.judge key g k skip (16 * die + i))

/-- The plan that a die takes: the least worst Tpred, ties to the lower cluster number (R353). -/
def bestPlan (l : List (Nat × Verdict)) : Option (Plan × Int) :=
  leastBy (fun e => [(e.2 + 2 ^ 24).toNat]) (l.filterMap fun e => match e.2 with
    | .ok p w => some (p, w)
    | _ => none)

/-- Count refusals (R342, R353, R355). -/
def State.countRefusals (s : State) (die seq : Nat) (l : List (Nat × Verdict)) : State :=
  let n := (l.filter fun e => e.2 == .refused).length
  let d := s.die die
  (s.setDie die { d with llrefuse := d.llrefuse + BitVec.ofNat 64 n }).modGrid seq fun q => { q with refused := q.refused + n }

/-! ### Placement -/

/-- A gang is placed (R297, R299): its cores take its partition, which removes lines of their cache regions, and pin its
lines, which evicts others (R211, R215), before it starts; a row-bound one has its rows set aside (R202); its cluster is
woken. -/
def State.place (s : State) (key : Nat) (g : Gang) (k : Packet) (p : Plan) : State :=
  let cl := p.cluster.toNat
  let s := s.setGang key { g with
    stat := .placed, cluster := p.cluster, groups := p.groups, coreOf := p.coreOf, bases := p.bases, hold := none
    waiting := false, again := false, placedAt := s.cycle.toNat, aside := g.rowBound
    remaining := if g.stat == .unplaced then List.range k.teams else g.remaining
    live := if g.stat == .unplaced then List.range k.teams else g.live }
  let s := (if k.accb == 0 then p.cores else [0, 1, 2, 3]).foldl (fun s n =>
    s.modCore (4 * cl + n) fun c => c.relayout (partReg k.partition) (partAcc k.partition)) s
  let s := p.cores.foldl (fun s n => s.pinLines (4 * cl + n)) s
  { s.setCluster cl { s.cluster cl with powered := true } with
    front := { s.front with lastDie := BitVec.ofNat 2 (cl / 16) } }

/-- The dies in turn, starting after the one that accepted last (R346). -/
def State.dieTurn (s : State) : List Nat := (List.range 4).map fun i => (s.front.lastDie.toNat + 1 + i) % 4

/-- Offer a gang to dies in turn: it is placed, or every one refuses. -/
def State.offerDies (s : State) (key : Nat) (g : Gang) (k : Packet) : List Nat → State × Bool
  | [] => (s, false)
  | d :: rest =>
    let l := s.verdicts key g k [] d
    let s := s.countRefusals d g.seq l
    match bestPlan l with
    | some (p, _) => (s.place key g k p, true)
    | none => State.offerDies s key g k rest

/-- A migration has ended: the gang has left its die's flight (R356). -/
def State.endMigration (s : State) (key : Nat) : State :=
  (List.range 4).foldl (fun s d =>
    if (s.die d).migrating == some key then s.setDie d { s.die d with migrating := none } else s) s

/-- Offer a gang: to the cluster that is held for it, else to the dies (R346, R356). -/
def State.offerGang (s : State) (key : Nat) (g : Gang) (k : Packet) : State × Bool :=
  let s' := s.endMigration key
  match g.hold with
  | none => s'.offerDies key g k s'.dieTurn
  | some h =>
    match s.judge key g k [] h.cluster.toNat with
    | .ok p _ => (s'.place key g k p, true)
    | _ => s'.offerDies key { g with hold := none } k s'.dieTurn

/-! ### The offers (R346, R347) -/

/-- A grid is placed whole (R347, R359). -/
def Packet.whole (p : Packet) : Bool := p.flags.getLsbD 0 || p.flags.getLsbD 1

/-- The gangs of a grid. -/
def Packet.gangs (p : Packet) : Nat := p.gx.toNat * p.gy.toNat * p.gz.toNat

/-- An offer. -/
inductive Offer where
  | saved (key : Nat)
  | next (seq : Nat)
  | whole (seq : Nat)
  deriving DecidableEq, Repr

/-- A grid that still dispatches. -/
def Grid.offers (q : Grid) : Bool := q.stat == .started && q.dispatching && q.reason == 0

/-- A waiting whole grid blocks another grid's placements (R347). -/
def State.blockedBy (s : State) (q : Grid) : Bool :=
  s.grids.any fun e =>
    e.2.offers && e.2.waiting && e.2.packet.whole && e.2.seq != q.seq &&
      (if q.packet.whole then
        decide (q.priority < e.2.priority) || (q.priority == e.2.priority && decide (e.2.seq < q.seq))
      else decide (q.priority ≤ e.2.priority))

/-- A saved gang that awaits re-placement: its windows have been withdrawn. -/
def Gang.awaits (g : Gang) : Bool := g.stat == .saved && !g.hasOpen && !g.remaining.isEmpty

/-- The pending offers in their order: gangs with held capacity, saved gangs, then the next gang of each grid. Each stands
with a mark: it has been made and refused, and no gang has ended or been saved since. -/
def State.offersDue (s : State) : List (Offer × Bool) :=
  let prio (q : Nat) : Nat := ((s.grid q).map fun g => 3 - g.priority.toNat).getD 3
  let saved := (s.gangs.filter fun e => e.2.awaits && ((s.grid e.2.seq).map fun q => q.reason == 0 && !s.blockedBy q).getD false)
  let byPrio (n : Nat) (b : Bool) : List (Offer × Bool) :=
    (saved.filter fun e => prio e.2.seq == n && e.2.hold.isSome == b).map fun e => (.saved e.1, e.2.waiting && !e.2.again)
  let grids := s.grids.filter fun e => e.2.offers && !s.blockedBy e.2
  let ofGrid (e : Nat × Grid) : Offer × Bool :=
    if e.2.packet.whole then (.whole e.1, e.2.waiting && !e.2.again)
    else (.next e.1, ((s.gang (gangKeyOf e.1 e.2.nextGang)).map fun g => g.waiting && !g.again).getD false)
  let gridsAt (n : Nat) : List (Offer × Bool) := (grids.filter fun e => prio e.1 == n).map ofGrid
  let ns := [0, 1, 2, 3]
  ns.flatMap (byPrio · true) ++ ns.flatMap (byPrio · false) ++ ns.flatMap gridsAt

/-- No core can set aside the rows of a row-bound gang (R202). -/
def Gang.rowsImpossible (g : Gang) (k : Packet) : Bool :=
  g.rowBound && g.groups.any fun e =>
    512 * partReg k.partition < (e.2.filter (g.remaining.contains ·)).length * 128 * (2 ^ k.lanesLog / 32)

/-- The last gang of a grid has been placed: it stops dispatching, and its queue goes on (R336, R346). -/
def State.dispatchDone (s : State) (seq : Nat) : State :=
  let s := s.modGrid seq fun q => { q with dispatching := false, dispatched := true, waiting := false, again := false }
  let free (q : Queue) : Queue := if q.blocked == some seq then { q with blocked := none } else q
  { s with front := { s.front with queues := s.front.queues.map free } }

/-- A gang of a grid as it is first offered. -/
def State.newGang (s : State) (seq num : Nat) : Gang := { seq := seq, num := num, waitSince := s.cycle.toNat }

/-- Place gangs `n`, `n + 1`, … of a whole grid. -/
def State.placeFrom (s : State) (seq : Nat) (k : Packet) : Nat → Nat → State × Bool
  | 0, _ => (s, true)
  | left + 1, n =>
    match s.offerGang (gangKeyOf seq n) ((s.gang (gangKeyOf seq n)).getD (s.newGang seq n)) k with
    | (s, true) => State.placeFrom s seq k left (n + 1)
    | r => r

/-- The first gang of a whole grid that an attempt `s'` did not place waits. -/
def State.markWaiting (s s' : State) (seq gangs : Nat) : State :=
  match (List.range gangs).find? fun n => (s'.gang (gangKeyOf seq n)).map (·.stat) != some .placed with
  | none => s
  | some n =>
    let g := (s.gang (gangKeyOf seq n)).getD (s.newGang seq n)
    s.setGang (gangKeyOf seq n) { g with waiting := true, again := false }

/-- Make an offer; the answer says whether it was taken. A refused one waits, and blocks others if it is whole. -/
def State.makeOffer (s : State) : Offer → State × Bool
  | .saved key =>
    match s.gang key with
    | none => (s, false)
    | some g =>
      let k := ((s.grid g.seq).map (·.packet)).getD {}
      if g.rowsImpossible k then (s.faultGrid g.seq 3, false)
      else
        match s.offerGang key g k with
        | (s, true) => (s, true)
        | (s, false) => (s.modGang key fun g => { g with waiting := true, again := false, hold := none }, false)
  | .next seq =>
    match s.grid seq with
    | none => (s, false)
    | some q =>
      let key := gangKeyOf seq q.nextGang
      let g := (s.gang key).getD (s.newGang seq q.nextGang)
      match s.offerGang key g q.packet with
      | (s, true) =>
        let s := s.modGrid seq fun q => { q with nextGang := q.nextGang + 1 }
        (if q.nextGang + 1 == q.packet.gangs then s.dispatchDone seq else s, true)
      | (s, false) => (s.setGang key { g with waiting := true, again := false }, false)
  | .whole seq =>
    match s.grid seq with
    | none => (s, false)
    | some q =>
      match s.placeFrom seq q.packet q.packet.gangs 0 with
      | (s', true) => ((s'.modGrid seq fun q => { q with nextGang := q.packet.gangs }).dispatchDone seq, true)
      | (s', false) =>
        let s := { s with dies := s'.dies, grids := s'.grids }.modGrid seq fun q => { q with waiting := true, again := false }
        (s.markWaiting s' seq q.packet.gangs, false)

/-- GANG_OFFER: the first pending offer that is due is made: one not made yet, or one refused before a gang ended or was
saved (R346). -/
def execGangOffer (s : State) : Result :=
  match s.offersDue.find? fun e => !e.2 with
  | none => .next s
  | some e => .next (s.makeOffer e.1).1

/-- Offers made again in their order until one is taken. -/
def State.reoffer (s : State) : List (Offer × Bool) → State
  | [] => s
  | e :: rest =>
    if !(s.offersDue.any fun x => x.1 == e.1) then State.reoffer s rest
    else
      match s.makeOffer e.1 with
      | (s, true) => s
      | (s, false) => State.reoffer s rest

/-- GANG_REOFFER: where an offer waits, the pending offers are made again (R346). -/
def execGangReoffer (s : State) : Result := .next (if s.offersDue.any (·.2) then s.reoffer s.offersDue else s)

/-! ### Migration and priority (R356, R357) -/

/-- The gangs that stand on a die; a placed one is about to start. -/
def State.residentsOf (s : State) (die : Nat) : List (Nat × Gang) :=
  (s.gangs.filter fun e => e.2.stands && e.2.cluster.toNat / 16 == die)

/-- The cores of a resident gang that hold teams of it that have not ended. -/
def Gang.coresOf (g : Gang) : List Nat :=
  g.plan.cores.filterMap fun n =>
    if (g.plan.teamsOn n).any (g.remaining.contains ·) then some (4 * g.cluster.toNat + n) else none

/-- The plan to which a gang should migrate, if R356 finds one. -/
def State.migrationPlan (s : State) (die : Nat) (key : Nat) (g : Gang) : Option Plan :=
  let d := s.die die
  let cores := g.coresOf
  let hot := (cores.map fun c => (s.vaultOf c).temp).foldl max (-(2 ^ 20))
  let g' := { g with stat := .saved }
  let l := (s.verdicts key g' (((s.grid g.seq).map (·.packet)).getD {}) [] die).filter fun e => e.1 != g.cluster.toNat
  if g.stat != .resident || s.cycle.toNat - g.placedAt < d.minres.toNat * 100 * usCycles ||
      !(cores.any fun c => 1 ≤ (s.vaultOf c).step) then none
  else
    match bestPlan l with
    | none => none
    | some (p, w) => if w + 4 * (d.hyst.toNat : Int) ≤ hot then some p else none

/-- The first gang in a list that migrates. -/
def State.firstMigration (s : State) (die : Nat) : List (Nat × Gang) → Option (Nat × Plan)
  | [] => none
  | e :: rest =>
    match s.migrationPlan die e.1 e.2 with
    | some p => some (e.1, p)
    | none => s.firstMigration die rest

/-- Gangs by the time of their placement. -/
def byAge (l : List (Nat × Gang)) : List (Nat × Gang) :=
  l.foldl (fun acc e => (acc.takeWhile fun x => x.2.placedAt ≤ e.2.placedAt) ++ [e] ++
    acc.dropWhile fun x => x.2.placedAt ≤ e.2.placedAt) []

/-- MIGRATION_SCAN: a gang is chosen, its pre-emption requested and a cluster held for it (R356). -/
def execMigrationScan (die : BitVec 2) (s : State) : Result :=
  let d := s.die die.toNat
  if !d.migen || d.migrating.isSome then .next s
  else
    match s.firstMigration die.toNat (byAge (s.residentsOf die.toNat)) with
    | none => .next s
    | some (key, p) =>
      let s := s.setDie die.toNat { d with migrating := some key, llmigr := d.llmigr + 1 }
      .next ((s.modGang key fun g => { g with hold := some p }).requestPreempt key .migration)

/-- A gang that has waited unplaced for 1 ms. -/
def State.longWait (s : State) (g : Gang) : Bool :=
  g.waiting && (g.stat == .unplaced || g.awaits) && ((s.grid g.seq).map (·.reason == 0)).getD false && 1000 * usCycles ≤ s.cycle.toNat - g.waitSince

/-- The launch priority of a gang's grid. -/
def State.priorityOf (s : State) (g : Gang) : Nat := ((s.grid g.seq).map (·.priority.toNat)).getD 0

/-- Whether, with a gang removed, some cluster of a die takes a waiting gang. -/
def State.wouldFit (s : State) (key : Nat) (g : Gang) (victim die : Nat) : Bool :=
  (bestPlan (s.verdicts key g (((s.grid g.seq).map (·.packet)).getD {}) [victim] die)).isSome

/-- The gang of a die that yields to a waiting one (R357): the most recently placed whose removal helps, a request for which may
be pending. -/
def State.victimFor (s : State) (die : Nat) (key : Nat) (g : Gang) : Option Nat :=
  ((byAge (s.residentsOf die)).reverse.find? fun e =>
    s.priorityOf e.2 + 2 ≤ s.priorityOf g &&
      !((s.grid e.2.seq).map fun q => q.packet.flags.getLsbD 1).getD false && s.wouldFit key g e.1 die).map (·.1)

/-- PRIORITY_PREEMPTION: a gang that waits makes Lamplighter pre-empt one of lower priority (R357). -/
def execPriorityPreemption (die : BitVec 2) (s : State) : Result :=
  match (s.gangs.filter fun e => s.longWait e.2).findSome? fun e => s.victimFor die.toNat e.1 e.2 with
  | none => .next s
  | some v => .next (s.requestPreempt v .scheduler)

end Sys2Proof.Machine
end

