-- ==== Sys2Proof/Machine/Publish.lean ====
section
/-! DEFINITION. Windows (spec/13 R309 to R315): PUBLISH, UNPUB, their completion, withdrawal, registration anew. -/

namespace Sys2Proof.Machine

/-! ### PUBLISH (R310, R311) -/

/-- The addresses at which a range meets its pages: one in each 64 KiB, the smallest page (R385). -/
def pagePoints (base len : Nat) : List Nat :=
  (List.range ((base + len - 1) / 65536 - base / 65536 + 1)).map fun i => max base ((base / 65536 + i) * 65536)

/-- How a page of a range stands for PUBLISH (R310): one homed on a peer cannot be redirected here (log 23). -/
inductive PubPage where
  | ok (p : Page)
  | refused
  | fatal
  | wait (w : Walk)
  deriving DecidableEq, Repr

def State.pubPage (s : State) (k : Nat) (t : Team) (va : Nat) : PubPage :=
  let tag := tagOf (t.asid.setWidth 16) va
  match s.translate (vaultTlb tag va) tag va .store (!t.sys) false with
  | (.page p, _) => if p.pa / 2 ^ 52 == s.fabric.fmod.toNat then .ok p else .refused
  | (.protect, _) => .refused
  | (.fault _, _) => if s.isFatal k tag va .store then .fatal else .wait (t.walkFor k tag va .store)

/-- The TLBs keep the translations of the pages of a range that a registration has walked (R387). -/
def State.keepPages (s : State) (tag : BitVec 16) (base len : Nat) (user : Bool) : State :=
  (pagePoints base len).foldl (fun s va =>
    match s.translate (vaultTlb tag va) tag va .store user false with
    | (.page _, kept) => s.keepTlb (vaultTlb tag va) tag kept
    | _ => s) s

/-- What the checks of PUBLISH come to. -/
inductive PubStat where
  | ok
  | trap (cause : BitVec 8) (info : Nat)
  | wait (ws : List Walk)
  deriving DecidableEq, Repr

/-- TRAPINFO of a protection of PUBLISH and UNPUB. -/
def pubInfo (base reason : Nat) : Nat := base % 2 ^ 48 + reason * 2 ^ 48

/-- The range overlaps a standing, opening or closing window, or one kept for a saved gang, under the same tag ASID. -/
def State.overlapsWindow (s : State) (tag : BitVec 16) (base len : Nat) : Bool :=
  s.gangs.any fun e => e.2.windows.any fun w =>
    w.tag == tag && decide (w.base < base + len) && decide (base < w.base + w.len)

/-- The windows that a group of a gang holds on its core. -/
def State.windowsOf (s : State) (t : Team) : Nat :=
  match s.gang t.gangKey with
  | none => 0
  | some g => (g.windows.filter (·.group == t.group)).length

/-- The checks of PUBLISH in order (R310). -/
def State.pubCheck (s : State) (k : Nat) (t : Team) (base off len : Nat) : PubStat :=
  let tag := tagOf (t.asid.setWidth 16) base
  match [base, off, len].find? (· % 512 != 0) with
  | some v => .trap 0x03 v
  | none =>
    if len = 0 || t.launch.scratch < off + len then .trap 0x10 off
    else if base / 2 ^ 48 != 0 || base.testBit 47 != (base + len - 1).testBit 47 then .trap 0x05 (pubInfo base 0)
    else
      let pages := (pagePoints base len).map fun va => (va, s.pubPage k t va)
      if pages.any (·.2 == .refused) then .trap 0x05 (pubInfo base 0)
      else
        match pages.find? (·.2 == .fatal) with
        | some p => .trap 0x04 (p.1 / 65536 * 65536)
        | none =>
          let ws := pages.filterMap fun p => match p.2 with
            | .wait w => some w
            | _ => none
          if !ws.isEmpty then .wait ws
          else if s.overlapsWindow tag base len then .trap 0x05 (pubInfo base 1)
          else if 4 ≤ s.windowsOf t then .trap 0x05 (pubInfo base 2)
          else .ok

/-- PUBLISH as its check sends it: the window opens and the team awaits the completion (R309). -/
def pubSend (base off len : Nat) (s : State) (k : Nat) (t : Team) : State :=
  let w : Window :=
    { base := base, len := len, off := off, group := t.group, tag := tagOf (t.asid.setWidth 16) base }
  let s := s.keepPages w.tag base len (!t.sys)
  (s.setTeam k { t.retire with await := some (.publish base) }).modGang t.gangKey fun g =>
    { g with windows := g.windows ++ [w] }

/-- The checks of PUBLISH, then `go` where they pass (R310). -/
def State.pubChecked (s : State) (k : Nat) (t : Team) (base off len : Nat) (go : State → Nat → Team → State) : State :=
  match s.pubCheck k t base off len with
  | .trap c info => (s.setTeam k t).accessTrap k t (t.at c (BitVec.ofNat 64 info))
  | .wait ws => s.askAll t ws []
  | .ok => go s k t

/-- PUBLISH performed: its checks and the opening of the window. -/
def publishBody (f : EN) (s : State) (k : Nat) (t : Team) : State :=
  let base := (t.sreg f.a.toNat).toNat
  let off := (t.sreg f.b.toNat).toNat % 2 ^ 63
  let len := (t.sreg f.c.toNat).toNat
  s.pubChecked k t base off len (pubSend base off len)

/-- PUBLISH (R309 to R311): under DET, once its checks pass, it waits for its serial slot (R365). -/
def execPublish (f : EN) (s : State) : Result :=
  issueScalar s (fun _ => [f.a.toNat, f.b.toNat, f.c.toNat]) fun k t =>
    if t.txstat.active then .next (s.raise k (t.misuse (wordOf (.publish f))))
    else
      match s.pubCheck k t (t.sreg f.a.toNat).toNat ((t.sreg f.b.toNat).toNat % 2 ^ 63) (t.sreg f.c.toNat).toNat with
      | .ok => syncOp (.publish f) s k (t.detIf t.sys 6) (publishBody f)
      | _ => .next (publishBody f s k t)

/-- The home line of each line of a window (R311); none while a page must be walked, or names a peer, whose lines have no home memory
here (log 23). -/
def State.windowHome (s : State) (user : Bool) (w : Window) : List Nat → Option (Tab Line)
  | [] => some []
  | n :: rest =>
    let va := w.base + 128 * n
    match s.translate (vaultTlb w.tag va) w.tag va .store user false, s.windowHome user w rest with
    | (.page p, _), some t =>
      if p.pa / 2 ^ 52 != s.fabric.fmod.toNat then none
      else some ((n, { pa := p.pa + (va - p.va), r := p.r, w := p.w, x := p.x, u := p.u, c := p.c }) :: t)
    | _, _ => none

/-- Every cached copy of a window's range is written back and removed (R311 step 1). -/
def State.evictRange (s : State) (w : Window) : State :=
  (List.range (w.len / 128)).foldl (fun s n => s.evictLine (lineKey w.tag (w.base + 128 * n))) s

/-- The range of a window `w` is redirected to its pool as `w'` (R311 step 2): stores on their way to it go there. `fill` says that
the pool has been filled with the content of the range. -/
def State.redirect (s : State) (g : Nat) (w w' : Window) (fill : Bool) : State :=
  (s.modGang g fun gg => { gg with windows := gg.windows.map fun x => if x == w then w' else x }).relocateIn g w' fill

/-- A team stops awaiting. -/
def State.endAwait (s : State) (k : Nat) : State := s.modTeam k fun t => { t with await := none }

/-- PUBLISH_COMPLETION: the range is redirected to the owner pool and the team goes on (R311). -/
def execPublishCompletion (team : Nat) (s : State) : Result :=
  match s.team team with
  | none => .next s
  | some t =>
    match t.await, s.gang t.gangKey with
    | some (.publish base), some g =>
      match g.windows.find? fun w =>
          w.base == base && w.group == t.group && w.tag == tagOf (t.asid.setWidth 16) base && w.stat == .opening with
      | none => .next s
      | some w =>
        let s := (s.evictRange w).keepPages w.tag w.base w.len (!t.sys)
        match s.windowHome (!t.sys) w (List.range (w.len / 128)) with
        | none => .next s
        | some home =>
          let w' := { w with stat := .standing, home := home }
          .next ((s.redirect t.gangKey w w' false).endAwait team)
    | _, _ => .next s

/-! ### UNPUB and withdrawal (R312, R313) -/

/-- A window that stands at a base for a group of teams. -/
def Window.standsAt (w : Window) (base group : Nat) : Bool := w.base == base && w.group == group && w.stat == .standing

/-- The window that UNPUB names by its base (R312). Of two at one base, under different tags, it is that of the team's own ASID if there
is one: the spec does not say which (DESIGN CHOICE, log 114). -/
def State.unpubWindow (s : State) (t : Team) (base : Nat) : Option Window :=
  (s.gang t.gangKey).bind fun g =>
    (g.windows.find? fun w => w.standsAt base t.group && w.tag == tagOf (t.asid.setWidth 16) base).or
      (g.windows.find? (·.standsAt base t.group))

/-- UNPUB performed: the window's withdrawal begins and the team awaits its end; another base is refused (R312). -/
def unpubBody (f : EN) (s : State) (k : Nat) (t : Team) : State :=
  let base := (t.sreg f.a.toNat).toNat
  match s.unpubWindow t base with
  | none => (s.setTeam k t).raise k (t.at 0x05 (BitVec.ofNat 64 (pubInfo base 3)))
  | some w =>
    (s.setTeam k { t.retire with await := some (.unpub base w.tag) }).modGang t.gangKey fun g =>
      { g with windows := g.windows.map fun x => if x == w then { w with stat := .closing } else x }

/-- UNPUB (R309, R312). -/
def execUnpub (f : EN) (s : State) : Result :=
  issueScalar s (fun _ => [f.a.toNat]) fun k t =>
    let base := (t.sreg f.a.toNat).toNat
    if t.txstat.active then .next (s.raise k (t.misuse (wordOf (.unpub f))))
    else if (s.unpubWindow t base).isSome then
      syncOp (.unpub f) s k (t.detIf t.sys 6) (unpubBody f)
    else .next (unpubBody f s k t)

/-- Every line of a window goes home whole (R313 step 3). -/
def State.windowBack (s : State) (g : Nat) (w : Window) : State :=
  (List.range (w.len / 128)).foldl (fun s n => s.flushWindowLine g w (w.base + 128 * n)) s

/-- No cache holds a line of a window's range: what is read there from now on is home memory (R313 step 4). -/
def State.dropRange (s : State) (w : Window) : State :=
  (List.range (w.len / 128)).foldl (fun s n => s.dropLine (lineKey w.tag (w.base + 128 * n))) s

/-- Teams of a gang that await the withdrawal of a window go on. -/
def State.endUnpub (s : State) (g base : Nat) (tag : BitVec 16) : State :=
  { s with teams := s.teams.map fun e =>
      (e.1, if e.2.gangKey == g && e.2.await == some (.unpub base tag) then { e.2 with await := none } else e.2) }

/-- WINDOW_WITHDRAWAL: the window's lines are written home and its range is redirected there (R313). A saved gang keeps
the window to be registered again (R314). -/
def execWindowWithdrawal (gang : Nat) (base : Nat) (s : State) : Result :=
  match s.gang gang with
  | none => .next s
  | some g =>
    match g.windows.find? fun w => w.base == base && w.stat == .closing with
    | none => .next s
    | some w =>
      if s.ownerBusy gang w then .next s
      else
      let s := ((s.windowBack gang w).dropRange w).relocateOut gang w
      let s := s.modGang gang fun g =>
        { g with windows :=
            if g.stat == .saved then g.windows.map fun x => if x == w then { w with stat := .dormant, home := [] } else x
            else g.windows.filter (· != w) }
      .next ((s.endUnpub gang base w.tag).settleGang gang)

/-! ### Registration anew (R314) -/

/-- Fill a window's scratchpad lines from home memory (R314), which counts as transfers (R394). -/
def State.windowFill (s : State) (g : Nat) (w : Window) : State :=
  w.home.foldl (fun s e =>
    let p := s.poolAt g w.group
    let off := w.off + 128 * e.1
    let pa := e.2.pa % 2 ^ 52
    let bad := [0, 1, 2, 3].filter fun i => s.physBad (pa / 32 + i)
    (s.setPool g w.group
      { mem := Memory.copy s.phys pa p.mem off 128
        poison := bad.foldl (fun l i => insertNat (off / 32 + i) l) (p.poison.filter fun n => n / 4 != off / 128)
      }).countTransfer pa e.2.c) s

/-- A dormant window of a gang that has been placed again stands, filled from home; none while a page must be walked. -/
def State.reopen (s : State) (g : Nat) (w : Window) : Option State :=
  let s := (s.evictRange w).keepPages w.tag w.base w.len false
  match s.windowHome false w (List.range (w.len / 128)) with
  | none => none
  | some home =>
    let w' := { w with stat := .standing, home := home }
    some ((s.windowFill g w').redirect g w w' true)

end Sys2Proof.Machine
end

