-- ==== Sys2Proof/Machine/Launch.lean ====
section
/-! DEFINITION. The launch front end (spec/16 R334 to R350, spec/01 R26 to R31, R39, R40, spec/22 R432, R433): queues,
packets, dependences, selection and start, the start and end of teams, retirement, LAUNCH. -/

namespace Sys2Proof.Machine

/-! ### The front end's accesses (R338, R341, R465) -/

/-- How an access of the front end ends: done; lost to a refusal or a fatal verdict; waiting. -/
inductive Front (α : Type) where
  | ok (a : α) (s : State)
  | lost
  | wait (s : State)
  deriving Repr

/-- An access of the front end to a page has been declared fatal (R392). -/
def State.frontFatal (s : State) (seq : Option Nat) (va : Nat) (write : Bool) : Bool :=
  s.relia.fatal.any fun f =>
    f.source.toNat == srcFront && f.grid == seq && f.line / 512 == va / 65536 && f.write == write

/-- A translation fault of the front end asks for its record and waits, unless it has been declared fatal. -/
def State.frontFault {α : Type} (s : State) (asid : BitVec 16) (seq : Option Nat) (va : Nat) (write : Bool) : Front α :=
  if s.frontFatal seq va write then .lost
  else
    .wait (s.askWalk { tag := tagOf asid va, line := va / 128, write := write, fetch := false, user := false
                       source := BitVec.ofNat 16 srcFront, team := none, grid := seq, ident := asid == 0 })

/-- Read bytes for a grid, or for no grid yet; where the CRC check of the answer has failed twice they are poisoned (R435). -/
def State.frontRead (s : State) (asid : BitVec 16) (seq : Option Nat) (va n : Nat) : Front (List Byte × Bool) :=
  if 2 ^ 48 < va + n then .lost
  else
    match s.agentRead asid va n with
    | .done (bs, bad) s =>
      let (crc, s) := s.crossing 4 (tagOf asid va) va
      .ok (bs, bad || crc) s
    | .sent s | .wait s => .wait s
    | .refused => .lost
    | .fault va _ => s.frontFault asid seq va false

/-- Poison the granules of bytes that an I/O-die agent has written where the CRC check failed twice (R435). -/
def State.agentCrc (s : State) (asid : BitVec 16) (va n : Nat) : State :=
  let (crc, s) := s.crossing 4 (tagOf asid va) va
  let loc := s.locOf (tagOf asid va) va
  if crc then s.poisonBytes loc.line ((List.range n).map fun i => (loc.inLine + i, 0)) else s

/-- The steps of a grid's writes after its journal states 1 to 4 (R433): the report and the completion word (R341), of which the word
of a fault follows one that has been sent without (R461). -/
def reportStep : Nat := 5
def wordStep (reason : BitVec 8) : Nat := if reason == 0 then 6 else 7

/-- The grid of a sequence of writes. -/
def Writer.seq : Writer → Option Nat
  | .grid q => some q
  | .report | .host => none

/-- A write of a sequence that has been made. -/
def State.writeOf (s : State) (owner : Writer) (step va : Nat) : Option AgentWrite :=
  s.front.writes.find? fun w => w.owner == owner && w.step == step && w.va == va

/-- A write of a sequence has been made, or is on its way to a peer. -/
def State.keepWrite (s : State) (owner : Writer) (step va : Nat) (stat : WriteStat) : State :=
  { s with front := { s.front with
      nextWrite := s.front.nextWrite + 1
      writes := s.front.writes ++ [{ id := s.front.nextWrite, owner := owner, step := step, va := va, stat := stat }] } }

/-- The writes of a sequence are over. -/
def State.endWrites (s : State) (owner : Writer) : State :=
  { s with front := { s.front with writes := s.front.writes.filter (·.owner != owner) } }

/-- Write bytes of one line as a step of a sequence of writes, done once the home has accepted it, and made once: at a peer its
acceptance or failure is awaited (R341, R431, R433, R438, R445). -/
def State.orderedWrite (s : State) (asid : BitVec 16) (owner : Writer) (step va : Nat) (bytes : List Byte) : AgentRes Unit :=
  match s.writeOf owner step va with
  | some w =>
    match w.stat with
    | .sent => .wait s
    | .accepted => .done () s
    | .failed => .refused
  | none =>
    match s.agentWrite asid va bytes owner.seq (some s.front.nextWrite) with
    | .done _ s => .done () ((s.agentCrc asid va bytes.length).keepWrite owner step va .accepted)
    | .sent s => .wait (s.keepWrite owner step va .sent)
    | r => r

/-- Write bytes of one line for a grid, in its order. -/
def State.frontWrite (s : State) (asid : BitVec 16) (seq step va : Nat) (bytes : List Byte) : Front Unit :=
  if 2 ^ 48 < va + bytes.length then .lost
  else
    match s.orderedWrite asid (.grid seq) step va bytes with
    | .done a s => .ok a s
    | .sent s | .wait s => .wait s
    | .refused => .lost
    | .fault va _ => s.frontFault asid (some seq) va true

/-! ### Queues (R334) -/

def State.queue (s : State) (q : BitVec 6) : Queue := s.front.queues.getD q.toNat {}
def State.setQueue (s : State) (q : BitVec 6) (x : Queue) : State :=
  { s with front := { s.front with queues := s.front.queues.setIfInBounds q.toNat x } }

/-- Slots of the ring: LOGSLOTS outside 1 to 12 reads as 4. -/
def Queue.log (q : Queue) : Nat := if 1 ≤ q.logslots.toNat && q.logslots.toNat ≤ 12 then q.logslots.toNat else 4
def Queue.slots (q : Queue) : Nat := 2 ^ q.log

/-- The address of slot `n`. -/
def Queue.slotAt (q : Queue) (n : Nat) : Nat := q.base.toNat % 2 ^ 48 / 128 * 128 + 128 * (n % q.slots)

/-- Packets in the ring. -/
def Queue.count (q : Queue) : Nat := (q.tail - q.head).toNat

/-- A write of QTAIL (R334). -/
def Queue.writeTail (q : Queue) (v : BitVec 32) : Queue :=
  if q.devok || q.slots < (v - q.head).toNat then { q with badtail := true } else { q with tail := v }

/-- QTAIL: the host's write (R334), a release over its earlier writes (R335). -/
def execQtail (q : BitVec 6) (value : W64) (s : State) : Result :=
  if s.registersOpen then .next (s.setQueue q ((s.queue q).writeTail (value.setWidth 32))) else .next s

/-! ### Packets (R337) -/

/-- The little-endian field of `n` bytes at an offset. -/
def fieldAt (bytes : List Byte) (at_ n : Nat) : Nat := leNat ((bytes.drop at_).take n)

def readPacket (bytes : List Byte) : Packet :=
  let f (at_ n : Nat) : Nat := fieldAt bytes at_ n
  { entry := BitVec.ofNat 64 (f 0x00 8), lanesLog := f 0x08 1, teams := f 0x09 1, flags := BitVec.ofNat 16 (f 0x0A 2)
    partition := BitVec.ofNat 32 (f 0x0C 4), gx := BitVec.ofNat 16 (f 0x10 2), gy := BitVec.ofNat 16 (f 0x12 2)
    gz := BitVec.ofNat 16 (f 0x14 2), argSize := f 0x16 2, argAddr := BitVec.ofNat 64 (f 0x18 8), scratch := f 0x20 4
    accb := f 0x24 4, power := f 0x28 1, phase := f 0x29 1, vdemand := f 0x2A 2, qlog := f 0x2C 1
    ctxBase := BitVec.ofNat 64 (f 0x30 8), ctxSize := f 0x38 4, dep0Addr := BitVec.ofNat 64 (f 0x40 8)
    dep0Val := BitVec.ofNat 64 (f 0x48 8), dep1Addr := BitVec.ofNat 64 (f 0x50 8), dep1Val := BitVec.ofNat 64 (f 0x58 8)
    compAddr := BitVec.ofNat 64 (f 0x60 8), compVal := BitVec.ofNat 64 (f 0x68 8), reportAddr := BitVec.ofNat 64 (f 0x70 8) }

/-- The partition word and the bytes that it must hold (R210). -/
def Packet.partOk (p : Packet) : Bool :=
  let w := p.partition.toNat
  let reg := w % 64
  w / 2 ^ 14 == 0 && w / 64 % 4 == 0 && (reg == 0 || (8 ≤ reg && reg ≤ 32)) && partAcc p.partition ≤ 32 &&
    p.accb ≤ partAcc p.partition * 65536 && p.scratch ≤ 7 * partSets p.partition * 128

/-- A packet is valid (R337, R210, R359). -/
def Packet.valid (p : Packet) (bytes : List Byte) : Bool :=
  let zero (at_ n : Nat) : Bool := fieldAt bytes at_ n == 0
  let det := p.flags.getLsbD 0
  zero 0x2D 3 && zero 0x3C 4 && zero 0x78 8 &&
    p.entry.toNat % 4 == 0 && p.entry.toNat / 2 ^ 48 == 0 &&
    (5 ≤ p.lanesLog && p.lanesLog ≤ 10) && (1 ≤ p.teams && p.teams ≤ 16) && p.flags.toNat / 16 == 0 && p.partOk &&
    p.gx != 0 && p.gy != 0 && p.gz != 0 && p.argSize ≤ 384 && (p.argSize == 0 || p.argAddr.toNat % 8 == 0) &&
    p.scratch ≤ 4194304 && p.accb ≤ 2097152 && p.power ≤ 7 && p.phase ≤ 15 && p.vdemand ≤ 64 &&
    (!det || (10 ≤ p.qlog && p.qlog ≤ 16)) && p.ctxBase != 0 && p.ctxBase.toNat % 128 == 0 && p.ctxSize % 128 == 0 &&
    (if det then 263168 else 1024) ≤ p.ctxSize && p.dep0Addr.toNat % 8 == 0 && p.dep1Addr.toNat % 8 == 0 &&
    !p.dep0Val.getLsbD 63 && !p.dep1Val.getLsbD 63 && p.compAddr.toNat % 8 == 0 && !p.compVal.getLsbD 63 &&
    p.reportAddr.toNat % 32 == 0

/-- Gangs that one empty cluster holds (R347): `n` of them stand, with teams and lines by core. -/
def Packet.perCluster (p : Packet) : Nat → Nat → (Nat → Nat) → (Nat → Nat) → Nat
  | 0, n, _, _ => n
  | left + 1, n, load, pins =>
    match dealTeams [0, 1, 2, 3] load 0 (List.range p.teams) [] with
    | none => n
    | some d =>
      let took (c : Nat) : Nat := (d.filter (·.2 == c)).length
      let pins' (c : Nat) : Nat := if took c == 0 then pins c else pins c + p.lines
      if partAcc p.partition * 65536 < (n + 1) * p.accb ||
          [0, 1, 2, 3].any fun c => took c != 0 && 7 * partSets p.partition < pins' c then n
      else p.perCluster left (n + 1) (fun c => load c + took c) pins'

/-- A grid placed whole does not fit an empty package (R347, R359). -/
def Packet.tooLarge (p : Packet) : Bool := p.whole && 64 * p.perCluster 64 0 (fun _ => 0) (fun _ => 0) < p.gangs

/-! ### The journal (R432, R433) -/

/-- Entries of the ring: JLOG outside 12 to 24 reads as 12. -/
def Journal.log (j : Journal) : Nat := if 12 ≤ j.jlog.toNat && j.jlog.toNat ≤ 24 then j.jlog.toNat else 12
def Journal.entryAt (j : Journal) (seq : Nat) : Nat := j.base.toNat % 2 ^ 48 / 4096 * 4096 + 64 * (seq % 2 ^ j.log)

/-- The doubleword at 0x08 of an entry. -/
def journalWord (g : Grid) (state : Nat) : List Byte :=
  leBytes 1 g.queue.toNat ++ leBytes 1 state ++ leBytes 1 (if state == 4 then g.reason.toNat else 0) ++ leBytes 1 g.depth ++
    leBytes 2 g.number.toNat ++ leBytes 2 0

/-- A whole entry. -/
def journalEntry (g : Grid) (state time : Nat) (digest : List Byte) : List Byte :=
  leBytes 8 g.seq ++ journalWord g state ++ leBytes 4 g.slot.toNat ++ leBytes 4 0 ++ leBytes 8 time ++ digest

/-- A write to the journal, which has to be made: one that is refused, fatal or lost at its home is tried again, for nothing
that follows it may be seen without it (R434; log 49). -/
def State.journalWrite (s : State) (seq state va : Nat) (bytes : List Byte) : Front Unit :=
  match s.frontWrite 0 seq state va bytes with
  | .lost =>
    .wait { s with
      front := { s.front with writes := s.front.writes.filter fun w => !(w.owner == .grid seq && w.step == state && w.va == va) }
      relia := { s.relia with fatal := s.relia.fatal.filter fun f => !(f.source.toNat == srcFront && f.grid == some seq) } }
  | r => r

/-- A later change of state: TIME, then the doubleword (R433). -/
def State.journalTo (s : State) (g : Grid) (state : Nat) : Front Unit :=
  let at_ := s.journal.entryAt g.seq
  match s.journalWrite g.seq state (at_ + 0x18) (leBytes 8 s.timeNs) with
  | .ok _ s => s.journalWrite g.seq state (at_ + 0x08) (journalWord g state)
  | r => r

/-- The entry that sequence number `seq` would reuse is in state 1 or 2 (R432). -/
def State.journalBusy (s : State) (seq : Nat) : Bool :=
  s.grids.any fun e =>
    (e.2.journaled == 1 || e.2.journaled == 2) && e.2.seq != seq && s.journal.entryAt e.2.seq == s.journal.entryAt seq

/-! ### Grids in their lives (R39, R40) -/

/-- The grids of a package that are not retired hold their numbers (R336). -/
def State.freeNumber (s : State) : Option Nat :=
  (List.range 4096).find? fun n => !(s.grids.any fun e => e.2.stat != .retired && e.2.number.toNat == n)

/-- A grid has ended: all its gangs have, or it never started (R40, R343). -/
def State.gridEnded (s : State) (q : Grid) : Bool :=
  match q.stat with
  | .retired => true
  | .accepted => q.reason != 0
  | .started =>
    (q.dispatched || q.reason != 0) &&
      s.gangs.all fun e => e.2.seq != q.seq || e.2.stat == .ended || (q.reason != 0 && e.2.stat == .unplaced)

/-- Every grid launched from one has retired, slots not yet accepted among them (R40). -/
def State.childrenRetired (s : State) (q : Grid) : Bool :=
  (s.grids.all fun e => e.2.parent != some q.seq || e.2.stat == .retired) &&
    s.front.queues.toList.all fun x => x.parents.all fun e => e.2 != q.seq

/-- The parent of a grid, if it was launched by LAUNCH. -/
def State.parentOf (s : State) (q : Grid) : Option Grid := q.parent.bind s.grid

/-! ### Dependences (R339) -/

/-- What a dependence comes to. -/
inductive Dep where
  | met | failed | unmet
  deriving DecidableEq, Repr

/-- Evaluate a dependence, read under the grid's ASID; a word that cannot be read, or is poisoned, is not met. -/
def State.depend (s : State) (q : Grid) (addr val : W64) : State × Dep :=
  if addr == 0 then (s, .met)
  else
    match s.frontRead q.asid (some q.seq) addr.toNat 8 with
    | .ok (bs, bad) s =>
      let w := leNat bs
      (s, if bad then .unmet else if w.testBit 63 then .failed else if val.toNat ≤ w then .met else .unmet)
    | .lost => (s, .unmet)
    | .wait s => (s, .unmet)

/-- A dependence that has been met stays met; an unmet one is evaluated (R339). -/
def State.dependOnce (s : State) (q : Grid) (met : Bool) (addr val : W64) : State × Dep :=
  if met then (s, .met) else s.depend q addr val

/-- Evaluate what keeps an accepted grid from starting: its parent's fault, its dependences (R339, R343, R344). -/
def State.evaluate (s : State) (q : Grid) : State :=
  if q.stat != .accepted || q.reason != 0 || q.dispatching then s
  else if ((s.parentOf q).map fun p => p.reason != 0).getD false then s.faultGrid q.seq 7
  else if q.metAt.isSome then s
  else
    let (s, a) := s.dependOnce q q.met0 q.packet.dep0Addr q.packet.dep0Val
    let (s, b) := s.dependOnce q q.met1 q.packet.dep1Addr q.packet.dep1Val
    if a == .failed || b == .failed then s.faultGrid q.seq 5
    else
      s.modGrid q.seq fun g =>
        { g with
          met0 := a == .met, met1 := b == .met
          metAt := if a == .met && b == .met then some s.cycle.toNat else g.metAt }

/-- Every accepted grid is evaluated. -/
def State.evaluateAll (s : State) : State := s.grids.foldl (fun s e => s.evaluate e.2) s

/-- DEPENDENCE_EVALUATION (R339). -/
def execDependenceEvaluation (s : State) : Result := .next s.evaluateAll

/-! ### Acceptance (R336) -/

/-- The grid of an accepted packet. -/
def State.gridOf (s : State) (q : BitVec 6) (x : Queue) (number : Nat) (bytes : List Byte) (readable : Bool) : Grid :=
  let p := readPacket bytes
  let parent := Tab.find x.parents x.head.toNat
  let pg := parent.bind s.grid
  let reason :=
    if !readable || !p.valid bytes then 1 else if p.tooLarge then 2 else if (pg.map (·.reason != 0)).getD false then 7 else 0
  let level := BitVec.ofNat 2 (p.flags.toNat / 4)
  { seq := s.front.nextSeq, number := BitVec.ofNat 12 number, queue := q, slot := x.head, parent := parent
    depth := (pg.map (·.depth + 1)).getD 0, packet := p, priority := if x.maxlvl < level then x.maxlvl else level
    asid := x.asid, reason := BitVec.ofNat 8 reason, journaled := if reason == 1 then 4 else 1 }

/-- The queue and the counters after an acceptance. -/
def State.accepted (s : State) (g : Grid) (x : Queue) : State :=
  let x := { x with
    head := x.head + 1, parents := Tab.erase x.parents x.head.toNat
    blocked := if g.reason == 0 then some g.seq else none }
  let s := s.setQueue g.queue x
  { s with
    grids := Tab.put s.grids g.seq g, front := { s.front with nextSeq := g.seq + 1 }
    journal := { s.journal with head := BitVec.ofNat 64 g.seq } }

/-- A queue's accepted head is not yet dispatched (QCTL.BLOCKED). -/
def State.queueBlocked (s : State) (x : Queue) : Bool :=
  match x.blocked.bind s.grid with
  | none => false
  | some g => g.reason == 0

/-- A packet as read is accepted once its journal entry is written; no other is meanwhile. -/
def State.accept (s : State) (a : Accepting) : State :=
  let x := s.queue a.queue
  let g := s.gridOf a.queue x a.number a.bytes a.readable
  let entry := journalEntry g g.journaled s.timeNs (shake256 a.bytes)
  let busy (s : State) (a : Option Accepting) : State := { s with front := { s.front with accepting := a } }
  match s.journalWrite g.seq 1 (s.journal.entryAt g.seq) entry with
  | .wait s => busy s (some a)
  | .lost => s
  | .ok _ s => (((busy s none).endWrites (.grid g.seq)).accepted g x).evaluate g

/-- The journal takes the entry of the next acceptance: it is enabled, and the entry is free (R432). -/
def State.journalOpen (s : State) : Bool := s.journal.en && !s.security.bootFailed && !s.journalBusy s.front.nextSeq

/-- A packet of a queue may be accepted: the queue is enabled, and the journal takes its entry (R336, R432). -/
def State.mayAccept (s : State) (x : Queue) : Bool := x.en && s.journalOpen

/-- PACKET_ACCEPTANCE: the front end reads, validates and numbers the head packet of a queue (R336, R432). An acceptance that waits for
its journal entry ends though the queue has been disabled meanwhile (DESIGN CHOICE, log 115). -/
def execPacketAcceptance (q : BitVec 6) (s : State) : Result :=
  let x := s.queue q
  match s.front.accepting with
  | some a => .next (if a.queue == q && s.journalOpen then s.accept a else s)
  | none =>
  if x.head == x.tail || s.queueBlocked x || !s.mayAccept x then .next s
  else
    match s.freeNumber with
    | none => .next s
    | some n =>
      match s.frontRead 0 none (x.slotAt x.head.toNat) 128 with
      | .wait s => .next s
      | .lost => .next (s.accept { queue := q, number := n, bytes := List.replicate 128 0, readable := false })
      | .ok (bytes, bad) s => .next (s.accept { queue := q, number := n, bytes := bytes, readable := !bad })

/-! ### Selection and start (R340, R345, R338) -/

/-- The 48 argument registers (R29). -/
def argsOf (bytes : List Byte) : Vector W64 48 := Vector.ofFn fun i : Fin 48 => BitVec.ofNat 64 (fieldAt bytes (8 * i) 8)

/-- A selected grid starts once its argument block is read, once, and its journal entry is written (R338, R340). -/
def State.startGrid (s : State) (q : Grid) : State :=
  let go (s : State) (bytes : List Byte) : State :=
    let s := s.modGrid q.seq fun g => { g with block := some bytes }
    match s.journalTo q 2 with
    | .wait s => s
    | .lost => s
    | .ok _ s =>
      (s.endWrites (.grid q.seq)).modGrid q.seq fun g =>
        { g with stat := .started, journaled := 2, args := argsOf bytes, block := none }
  match q.block with
  | some bytes => go s bytes
  | none =>
    if q.packet.argSize == 0 then go s []
    else
      match s.frontRead q.asid (some q.seq) q.packet.argAddr.toNat q.packet.argSize with
      | .wait s => s
      | .lost => s.faultGrid q.seq 8
      | .ok (bytes, bad) s => if bad then s.faultGrid q.seq 8 else go s bytes

/-- A grid that has been selected and has not started. -/
def Grid.starting (q : Grid) : Bool := q.stat == .accepted && q.dispatching && q.reason == 0

/-- Grids that are dispatching (R345). -/
def State.dispatchingCount (s : State) : Nat := (s.grids.filter fun e => e.2.dispatching && e.2.reason == 0).length

/-- The effective level of a head (R345). -/
def Grid.level (q : Grid) : Nat := min 3 (q.priority.toNat + q.aged)

/-- Everything that an ended grid has stored, or its loads have read, is visible (R340): no store of it is on its way to a
peer, and no entry of a queue that a team of it has read stands any longer. -/
def State.gridSeen (s : State) (q : Grid) : Bool :=
  !(s.fabric.out.any fun x => x.grid == some q.seq && (match x.what with
    | .fill _ => false
    | _ => true)) &&
    s.teams.all fun e => e.2.seq != q.seq || ((s.core e.2.core.toNat).standing e.2.seen).isEmpty

/-- Heads that can be selected (R340, R345). -/
def State.heads (s : State) : List Grid :=
  (s.grids.map (·.2)).filter fun q =>
    q.stat == .accepted && q.reason == 0 && q.metAt.isSome && !q.dispatching &&
      (s.queue q.queue).blocked == some q.seq &&
      ((s.parentOf q).map fun p => p.reason == 0 && s.gridEnded p && s.gridSeen p).getD true

/-- The head that selection takes: the highest level, then round robin (R345). -/
def State.nextHead (s : State) : Option Grid :=
  leastBy (fun q =>
    let last := (s.front.lastQueue.getD q.level 63).toNat
    [3 - q.level, (q.queue.toNat + 64 - last - 1) % 64]) s.heads

/-- SELECTION: grids that wait to start try again; then a head is selected and starts (R345). -/
def execSelection (s : State) : Result :=
  let s := (s.grids.filter (·.2.starting)).foldl (fun s e => s.startGrid e.2) s
  if 8 ≤ s.dispatchingCount then .next s
  else
    match s.nextHead with
    | none => .next s
    | some q =>
      let s := { s with front := { s.front with lastQueue := s.front.lastQueue.setIfInBounds q.level q.queue } }
      .next ((s.modGrid q.seq fun g => { g with dispatching := true }).startGrid q)

/-- EFFECTIVE_LEVEL_AGING: each full 10 ms that a head stands unselected raises its level (R345). -/
def execEffectiveLevelAging (s : State) : Result :=
  let aged (q : Grid) : Grid :=
    match q.metAt with
    | some m =>
      if q.stat == .accepted && !q.dispatching then { q with aged := min 3 ((s.cycle.toNat - m) / (10000 * usCycles)) } else q
    | none => q
  .next { s with grids := s.grids.map fun e => (e.1, aged e.2) }

/-! ### Teams (R26 to R31, R39, R338, R390) -/

/-- The launch values of a gang's teams (R30). -/
def Grid.launchOf (q : Grid) (num : Nat) : Launch :=
  let p := q.packet
  let x := num % p.gx.toNat
  let y := num / p.gx.toNat % p.gy.toNat
  let z := num / (p.gx.toNat * p.gy.toNat)
  { number := q.number, gangs := p.gangs, teams := p.teams, x := BitVec.ofNat 16 x, y := BitVec.ofNat 16 y
    z := BitVec.ofNat 16 z, gx := p.gx, gy := p.gy, gz := p.gz, depth := q.depth, scratch := p.scratch, acc := p.accb
    phase := p.phase, det := p.flags.getLsbD 0, cohort := p.flags.getLsbD 1, qlog := p.qlog, priority := q.priority }

/-- The core of a group. -/
def Gang.coreFor (g : Gang) (grp : Nat) : BitVec 8 :=
  BitVec.ofNat 8 (4 * g.cluster.toNat + (Tab.find g.coreOf grp).getD 0)

/-- A team at its start (R26 to R30, R253, R338, R390). -/
def Grid.newTeam (q : Grid) (g : Gang) (grp n : Nat) : Team :=
  { seq := q.seq, gang := g.num, num := n, lanes := 2 ^ q.packet.lanesLog, launch := q.launchOf g.num, args := q.args
    core := g.coreFor grp, group := grp, pc := q.packet.entry.setWidth 48, asid := q.asid.setWidth 64
    detcause := if q.packet.flags.getLsbD 0 then 1 else 0
    saveptr := (q.packet.ctxBase + BitVec.ofNat 64 (q.packet.ctxSize * (g.num * q.packet.teams + n))) &&& 0xFFFFFFFFFF80 }

/-- A gang stands on its cluster, with its scratchpads zero and its tiles undefined (R215, R269): the free values of a DET gang's
tiles are the same in every run and for every placement (R372). -/
def State.stand (s : State) (q : Grid) (g : Gang) : Gang :=
  { g with
    stat := .resident, frozen := false, pools := g.groups.map fun e => (e.1, {}), tiles := []
    tileSeed := if q.packet.flags.getLsbD 0 then 2 * g.num + 1 else 2 * s.freeIdx
    tileAlike := q.packet.flags.getLsbD 0 }

/-- The teams of a gang placed for the first time start. -/
def State.startTeams (s : State) (q : Grid) (key : Nat) (g : Gang) : State :=
  let s := s.setGang key (s.stand q g)
  g.groups.foldl (fun s e => e.2.foldl (fun s n =>
    let t := q.newTeam g e.1 n
    s.setTeam t.key t) s) s

/-- Register a gang's dormant windows again (R314); none where a page must be walked, with the walks to ask for. -/
def State.reopenAll (s : State) (key : Nat) : List Window → Option State
  | [] => some s
  | w :: rest =>
    match s.reopen key w with
    | none => none
    | some s => State.reopenAll s key rest

/-- The walks that a gang's windows want. -/
def State.windowWalks (s : State) (g : Gang) : State :=
  (g.windows.flatMap fun w => (pagePoints w.base w.len).map fun va => (w.tag, va)).foldl (fun s e =>
    match s.translate (vaultTlb e.1 e.2) e.1 e.2 .store false false with
    | (.fault _, _) =>
      s.askWalk { tag := e.1, line := e.2 / 128, write := true, fetch := false, user := false
                  source := BitVec.ofNat 16 (srcCore (4 * g.cluster.toNat)), team := none, grid := some g.seq }
    | _ => s) s

/-- A saved gang stands on its new cluster; its teams wait at their restore entry (R267, R298, R306, R314). Queue entries of
their old cores that they have read have drained by then (R222, R340). -/
def State.standAgain (s : State) (q : Grid) (key : Nat) (g : Gang) : State :=
  let moves (t : Team) : Bool := t.gangKey == key && t.stat == .saved
  let g := s.stand q g
  if s.teams.any fun e => moves e.2 && !((s.core e.2.core.toNat).standing e.2.seen).isEmpty then s
  else
    match (s.setGang key g).reopenAll key g.windows with
    | none => s.windowWalks g
    | some s =>
      { s with teams := s.teams.map fun e =>
          (e.1, if moves e.2 then { e.2 with core := g.coreFor e.2.group, seen := [], acquired := [] } else e.2) }

/-- TEAM_START: the teams of a placed gang start (R28); a gang of a grid that has faulted meanwhile ends. -/
def execTeamStart (gang : Nat) (s : State) : Result :=
  match s.gang gang with
  | none => .next s
  | some g =>
    match s.grid g.seq with
    | none => .next s
    | some q =>
      if g.stat != .placed then .next s
      else if (s.teamsOf gang).isEmpty then
        if q.reason != 0 then
          .next (((s.setGang gang { g with stat := .ended, live := [], remaining := [] }).dropMigration gang).offerAgain.regate
            g.cluster.toNat)
        else .next (s.startTeams q gang g)
      else .next (s.standAgain q gang g)

/-- TEAM_STOP: a team of a faulted grid stops at its boundary, without trap or save (R344). -/
def execTeamStop (team : Nat) (s : State) : Result :=
  match s.team team with
  | none => .next s
  | some t =>
    if ((s.grid t.seq).map fun q => q.reason == 0 || q.stat != .started).getD true ||
        !(t.stat == .running || t.stat == .saved) then .next s
    else
      let s := ((s.closeOp team).forgetFaults team).modTeam team fun t =>
        { t with stat := .stopped, trap := none, reports := [], park := none, tx := {}
                 txstat := { t.txstat with active := false } }
      let s := ((s.releaseHolds team).leaveLive t).unblockTiles team t
      .next (s.modGrid t.seq fun q => { q with held := q.held.filter fun h => !(h.team == team && h.cmd == .sync) })

/-- Nothing of a team is on its way (R39). -/
def State.quietTeam (s : State) (k : Nat) (t : Team) : Bool :=
  t.allZero && t.await.isNone && t.buf.isEmpty && !((s.core t.core.toNat).queue.any fun e => e.team == k) &&
    !(s.amos.any fun a => a.team == k) && !(s.commits.any fun c => c.team == k)

/-- A team has ended: its rows, h registers and counters are released (R39), and what else it holds stays (R427). -/
def Team.ended (t : Team) : Team :=
  { t with
    stat := .ended, rows := [], rowErr := [], h := Vector.replicate 8 0, paths := Vector.replicate 8 [], busy := []
    trap := none, reports := [], park := none, openOp := none, boundary := false, tx := {}, rowWait := none, reserve := false
    readySince := none, yielded := none, offered := [], pipe := {} }

/-- TEAM_END: a team whose EXIT was checked, or that has been stopped, ends when its operations have completed; with the
last of them its gang ends (R39, R40). -/
def execTeamEnd (team : Nat) (s : State) : Result :=
  match s.team team with
  | none => .next s
  | some t =>
    if !(t.stat == .exited || t.stat == .stopped) || !s.quietTeam team t then .next s
    else
      let s := (s.unblockTiles team t).modGang t.gangKey fun g =>
        { g with remaining := g.remaining.filter (· != t.num), live := g.live.filter (· != t.num) }
      let s := { s.modTeam team Team.ended with cur := if s.cur == some team then none else s.cur }
      .next ((if t.launch.det then s else s.settle t).settleGang t.gangKey)

/-! ### Retirement (R341, R342) -/

/-- The grid report (R342). -/
def Grid.report (q : Grid) : List Byte :=
  leBytes 8 (q.charge / 720720) ++ leBytes 8 (q.residence / usCycles) ++ leBytes 8 q.refused ++ leBytes 8 q.preemptions

/-- A report or completion write has been dropped (R341, R436): `kind` 1 for a report. -/
def State.writeDropped (s : State) (q : Grid) (addr kind : Nat) : State :=
  s.beacon srcFront 0x64 2 [(16, q.number.toNat), (24, addr), (32, kind)]

/-- The journal's final state: one that has been written as completed is written again where the grid faults before it has retired
(R433, R461). -/
def State.retireJournal (s : State) (q : Grid) : Front Unit :=
  let state := if q.reason == 0 then 3 else 4
  if state ≤ q.journaled then .ok () s
  else
    match s.journalTo q state with
    | .ok _ s => .ok () (s.modGrid q.seq fun g => { g with journaled := state })
    | r => r

/-- Write a report or completion word, `kind` 1 for a report (R341): one that fails protection, is declared fatal, or whose CRC
check fails twice on its way to another die (R435) is dropped, and none of its bytes is written. -/
def State.retireWrite (s : State) (q : Grid) (kind a : Nat) (bytes : List Byte) : Front Unit :=
  let step := if kind == 1 then reportStep else wordStep q.reason
  let (crc, s₁) := s.crossing 4 (tagOf q.asid a) a
  let first := (s.writeOf (.grid q.seq) step a).isNone
  match s.frontWrite q.asid q.seq step a bytes with
  | .lost => .ok () (s.writeDropped q a kind)
  | .ok u s => .ok u (if first && crc then s₁.writeDropped q a kind else s)
  | .wait s => .wait s

/-- The report, if the packet names an aligned place for one. -/
def State.retireReport (s : State) (q : Grid) : Front Unit :=
  let a := q.packet.reportAddr.toNat
  if q.reported || a == 0 || a % 32 != 0 then .ok () s
  else
    match s.retireWrite q 1 a q.report with
    | .ok u s => .ok u (s.modGrid q.seq fun g => { g with reported := true })
    | r => r

/-- The completion word (R341). -/
def State.retireWord (s : State) (q : Grid) : Front Unit :=
  let a := q.packet.compAddr.toNat
  let v := if q.reason == 0 then q.packet.compVal.toNat else 2 ^ 63 + q.reason.toNat
  if a == 0 || a % 8 != 0 then .ok () s
  else
    s.retireWrite q 0 a (leBytes 8 v)

/-- A grid may retire (R40): ended, its children retired, its puts acknowledged. -/
def State.mayRetire (s : State) (q : Grid) : Bool :=
  q.stat != .retired && s.gridEnded q && s.childrenRetired q && s.gridSeen q && !(s.fabric.out.any fun x => x.grid == some q.seq)

/-- The grid is retired: a fault passes to its parent (reason 6), and its completion write is a moment to evaluate
dependences (R339, R343). -/
def State.finishGrid (s : State) (q : Grid) : State :=
  let s := ((s.endWrites (.grid q.seq)).modGrid q.seq fun g => { g with stat := .retired, dispatching := false })
  let s := match q.parent with
    | some p => if q.reason == 0 then s else s.faultGrid p 6
    | none => s
  s.evaluateAll

/-- GRID_RETIREMENT: journal, report, completion word, in this order (R341). -/
def execGridRetirement (seq : Nat) (s : State) : Result :=
  match s.grid seq with
  | none => .next s
  | some q =>
    if !s.mayRetire q then .next s
    else
      match s.retireJournal q with
      | .wait s => .next s
      | .lost => .next s
      | .ok _ s =>
        match s.retireReport q with
        | .wait s => .next s
        | .lost => .next s
        | .ok _ s =>
          match s.retireWord q with
          | .wait s => .next s
          | .lost => .next s
          | .ok _ s => .next (s.finishGrid q)

/-! ### LAUNCH (R348, R349) -/

/-- What a LAUNCH into a queue comes to: a status at once, a slot whose bytes leave for a peer, or a wait. -/
inductive Launched where
  | status (n : Nat) (s : State)
  | sends (q : BitVec 6) (x : OutTxn) (s : State)
  | wait (s : State)
  deriving DecidableEq, Repr

/-- A slot of a queue is being written at a peer. -/
def State.slotBusy (s : State) (q : BitVec 6) : Bool :=
  s.teams.any fun e => match e.2.await with
    | some (.launch _ n) => n == q
    | _ => false

/-- Whether a queue takes a slot, and the bytes written there (R349): a slot that cannot be written is taken all the same
(log 49). -/
def State.launchInto (s : State) (k : Nat) (t : Team) (q : W64) (bytes : List Byte) : Launched :=
  if 63 < q.toNat then .status 2 s
  else
    let n := BitVec.ofNat 6 q.toNat
    let x := s.queue n
    if !x.en || !x.devok then .status 2 s
    else if s.slotBusy n then .wait s
    else if x.slots ≤ x.count then .status 1 s
    else
      let va := x.slotAt x.tail.toNat
      let put (s : State) : Launched :=
        .status 0 (s.setQueue n { x with tail := x.tail + 1, parents := Tab.put x.parents x.tail.toNat t.seq })
      match s.reach s.ioTlb (tagOf 0 va) va .store false true with
      | .peer s p =>
        .sends n { dest := BitVec.ofNat 12 (p.pa / 2 ^ 52), va := va, cls := 0, team := some k, grid := some t.seq
                   op := t.opSeq, what := .slot (bytes.zipIdx.map fun b => (b.2, b.1)) } s
      | _ =>
        match s.agentWrite 0 va bytes none none with
        | .done _ s => put (s.agentCrc 0 va bytes.length)
        | .sent s | .wait s => .wait s
        | .refused => put s
        | .fault va _ =>
          match (s.frontFault 0 (some t.seq) va true : Front Unit) with
          | .wait s => .wait s
          | .lost => put s
          | .ok _ s => put s

/-- How the packet image stands (R160, R349). -/
def State.imageStat (s : State) (k : Nat) (t : Team) (a : Nat) : ExtStat :=
  match s.extentStat k t { addr := a, len := 128, align := 128, need := .load } with
  | .ok => if (s.viewPoison t [{ addr := a, len := 128, align := 128, need := .load }]).isEmpty then .ok else .trap 0x11 a
  | r => r

/-- LAUNCH as its check performs it. While the slot's bytes travel to a peer the team awaits the status. -/
def launchBody (f : EN) (s : State) (k : Nat) (t : Team) : State :=
  let a := (t.sreg f.a.toNat).toNat
  match s.imageStat k t a with
  | .trap c _ => (s.setTeam k t).accessTrap k t (t.at c (BitVec.ofNat 64 (if a.testBit 63 then a % 2 ^ 63 else a)))
  | .wait w => s.askAll t w.toList []
  | .ok =>
    let image : List Extent := [{ addr := a, len := 128, align := 128, need := .load }]
    let out := s.viewOutside t image
    match (s.noteView k t image).launchInto k t (t.sreg f.b.toNat) (s.viewBytes t a 128) with
    | .wait s => s
    | .sends q x s => (s.setTeam k { (t.detIf out 5).retire with await := some (.launch f.c q) }).send x
    | .status n s => s.setTeam k (((t.detIf (n == 1 || out) 5).setS f.c.toNat (BitVec.ofNat 64 n)).retire)

/-- LAUNCH (R348, R349): misuse in a transaction, the depth limit, the packet image; under DET it waits for its serial
slot (R364). -/
def execLaunch (f : EN) (s : State) : Result :=
  issueScalar s (fun _ => [f.a.toNat, f.b.toNat, f.c.toNat]) fun k t =>
    if t.txstat.active then .next (s.raise k (t.misuse (wordOf (.launch f))))
    else if t.launch.depth == 10 then .next (s.raise k (t.at 0x09 10))
    else
      match s.imageStat k t (t.sreg f.a.toNat).toNat with
      | .ok => syncOp (.launch f) s k (t.detIf t.sys 6) (launchBody f)
      | _ => .next (launchBody f s k t)

end Sys2Proof.Machine
end

