-- ==== Sys2Proof/Machine/Det.lean ====
section
/-! DEFINITION. The boundary of a DET grid (spec/17 R361 to R370): the commit of the private buffers, the serial phase in
clock order, the release. -/

namespace Sys2Proof.Machine

/-- The teams of a grid, in ascending linear number (R360). -/
def State.gridTeams (s : State) (seq : Nat) : List (Nat × Team) := s.teams.filter fun e => e.2.seq == seq

/-- A live team has ended its quantum (R361); a saved one ends its own only after it is placed again (R369), one that the
breaker has stopped has ended it in whatever mode it stands (R370). -/
def Team.quantumEnded (t : Team) : Bool :=
  match t.stat with
  | .exited => true
  | .stopped => true
  | .ended => true
  | .saved => false
  | .running => t.park.isSome && (!t.sys || t.park == some .breaker) && t.trap.isNone && t.await.isNone

/-- Every gang of the grid stands, and every live team has ended its quantum. -/
def State.boundaryDue (s : State) (q : Grid) : Bool :=
  q.stat == .started && (q.dispatched || q.reason != 0) &&
    !(s.gangs.any fun e => e.2.seq == q.seq && (e.2.stat == .placed || (e.2.stat == .saved && !e.2.remaining.isEmpty))) &&
    (s.gridTeams q.seq).all fun e => e.2.quantumEnded

/-! ### Commit (R362 step 1, R363) -/

/-- The first buffered store, in ascending team and program order. -/
def firstBuffered : List (Nat × Team) → Option (Nat × Team × QEntry)
  | [] => none
  | e :: rest =>
    match e.2.buf with
    | [] => firstBuffered rest
    | b :: _ => some (e.1, e.2, b)

/-- Apply a buffered store to memory; one that must wait for a line, or for an older store to that line that the team has
made in system mode (R162, R371) or has read (R220), leaves the state with what it asks for. A peer's line takes it as a
write. -/
def State.commitBuffered (s : State) (k : Nat) (t : Team) (e : QEntry) : State × Bool :=
  let drop (s : State) : State := s.modTeam k fun t => { t with buf := t.buf.tail }
  let core := t.core.toNat
  let first (x : QEntry) : Bool := x.team == k || t.seen.contains x.n || t.acquired.contains x.n
  if s.entryBlocked core e || (s.core core).queue.any fun x => first x && x.loc == e.loc then (s.invalidateLoc e.loc, false)
  else
    match e.loc with
    | .pool .. => (drop (s.performStore (some t.seq) e.loc e.bytes), true)
    | .virt tag va =>
      let peer := s.homeModule tag va e.page
      let put (s : State) : State × Bool := (drop (s.landStore (core / 64) (some t.seq) none e.loc e.bytes), true)
      if peer != s.fabric.fmod.toNat then
        (drop (s.send { dest := BitVec.ofNat 12 peer, va := va, cls := if e.scalar then 0 else 2, team := some k
                        grid := some t.seq, op := e.op, what := .write e.bytes }), true)
      else if (Tab.find s.lines (lineKey tag va)).isSome then put s
      else
        match e.page with
        | some p => put (s.fillLine tag va p)
        | none =>
          match s.reach (vaultTlb tag va) tag va .store false false with
          | .ready s _ => put s
          | _ => (s, false)

/-- Commit buffered stores in order until one must wait: at most `n`. -/
def State.commitAll (s : State) (seq : Nat) : Nat → State
  | 0 => s
  | n + 1 =>
    match firstBuffered (s.gridTeams seq) with
    | none => s
    | some (k, t, e) =>
      match s.commitBuffered k t e with
      | (s, true) => State.commitAll s seq n
      | (s, false) => s

/-- Buffered stores of a grid. -/
def State.bufferedCount (s : State) (seq : Nat) : Nat := (s.gridTeams seq).foldl (fun n e => n + e.2.buf.length) 0

/-! ### The serial phase (R362 step 2, R364, R365, R368) -/

/-- The serial phase begins: what a BARTEST is to see is fixed (R364), and no team issues. -/
def State.beginSerial (s : State) (seq : Nat) : State :=
  let mark (h : Held) : Held :=
    match h.instr, s.team h.team with
    | .bartest f, some t =>
      { h with seen := ((Tab.find t.pend f.i.toNat).map fun e => (s.settle t).markDone t f.i e).getD false }
    | _, _ => h
  let s := s.modGrid seq fun q => { q with serial := true, held := q.held.map mark }
  { s with teams := s.teams.map fun e => (e.1, if e.2.seq == seq then { e.2 with boundary := true } else e.2) }

/-- Nothing of the grid is on its way: the operation before has been performed, to its completion, and so has every store
that its teams have made in system mode (R371). -/
def State.quietGrid (s : State) (seq : Nat) : Bool :=
  let mine (k : Nat) : Bool := ((s.team k).map fun t => t.seq == seq).getD false
  !(s.amos.any fun a => mine a.team) && !(s.commits.any fun c => mine c.team) && !(s.reds.any fun r => mine r.team) &&
    !(s.cores.any fun e => e.2.queue.any fun x => mine x.team) &&
    !(s.clusters.any fun e => (e.2.table.any fun x => mine x.team) || e.2.copies.any fun c => mine c.team) &&
    !(s.fabric.out.any fun x => x.grid == some seq) && (s.gridTeams seq).all fun e => e.2.await.isNone

/-- The held operation that comes first: escalated TXENDs, then the lowest clock, then the lowest team (R362, R368). -/
def nextHeld (l : List Held) : Option Held :=
  leastBy (fun h => [if h.escalated then 0 else 1, h.clock, h.linear]) l

/-- The effect of a synchronising operation in its slot (R364). An AMO is sent as one that no later access of the team goes
before, wherever its doubleword lies. -/
def syncBody (h : Held) (s : State) (k : Nat) (t : Team) : State :=
  match h.instr with
  | .amoadd f => amoSend f 0 s k t
  | .amoand f => amoSend f 1 s k t
  | .amoor f => amoSend f 2 s k t
  | .amoxor f => amoSend f 3 s k t
  | .amomin f => amoSend f 4 s k t
  | .amomax f => amoSend f 5 s k t
  | .amoswp f => amoSend f 6 s k t
  | .amocas f => amoSend f 7 s k t
  | .txend f => txendSend f s k t
  | .bararr f => arrival (.bararr f) f.i Team.retire s k t
  | .barsync f => arrival (.barsync f) f.i Team.waitHere s k t
  | .bartest f => barTest f (fun _ _ _ => h.seen) s k t
  | .phadv _ => phaseArrive s k t
  | .launch f => launchBody f s k t
  | .publish f => publishBody f s k t
  | .unpub f => unpubBody f s k t
  | _ => s

/-- A team has done what it was parked at: it retired, waits as R265 says, or trapped. -/
def Team.movedOn (t u : Team) : Bool := t.pc != u.pc || t.waitOnly != u.waitOnly || t.sys != u.sys || t.stat != u.stat || u.trap.isSome

/-- Remove the first equal entry of a grid's held operations. -/
def State.dropHeld (s : State) (seq : Nat) (h : Held) : State := s.modGrid seq fun q => { q with held := q.held.erase h }

/-- Perform a held operation in its slot; it stays held where it must wait. An engine command enters its engine, which
performs it to completion before the next; its fork edge stands at the slot (R365), and a CPYP counts for code 5 there
(R373). -/
def State.performHeld (s : State) (seq : Nat) (h : Held) : State :=
  match s.team h.team with
  | none => s.dropHeld seq h
  | some t =>
    let cl := t.core.toNat / 4
    let fork := (s.core t.core.toNat).entered
    match h.cmd with
    | .matrix e => if 16 ≤ (s.cluster cl).table.length then s else (s.dropHeld seq h).enterTable cl { e with fork := fork }
    | .copy c =>
      let r := s.cluster cl
      if 16 ≤ r.copies.length then s
      else
        ((s.dropHeld seq h).modTeam h.team fun t => if c.kind == .cpyp then t.detEvent 5 c.pc else t).setCluster cl
          { r with copies := r.copies ++ [{ c with fork := fork }] }
    | .red r => { s.dropHeld seq h with reds := s.reds ++ [{ r with fork := fork }] }
    | .sync =>
      let s' := syncBody h s h.team t
      match s'.team h.team with
      | none => s'.dropHeld seq h
      | some u => if t.movedOn u then s'.dropHeld seq h else s'

/-! ### Release (R362 step 3, R366, R369) -/

/-- Settle every barrier and phase episode of a grid. -/
def State.settleGrid (s : State) (seq : Nat) : State :=
  (s.gridTeams seq).foldl (fun s e => (s.settle e.2).modGang e.2.gangKey Gang.settlePhase) s

/-- A team at the release: a PHADV whose condition holds goes on, one whose condition does not stays; every other park
ends, and a wait that still holds parks again at once (R361, R366). -/
def State.releaseTeam (s : State) (t : Team) : Team :=
  let t := { t with boundary := false }
  if t.park == some .phase || (t.park == some .sync && t.phWait.isSome) then
    if s.phaseReady t then { t.phaseDone with park := none } else { t with park := some .phase }
  else { t with park := none }

/-- The breakers of the cores that have fired act at the boundary of a DET grid (R370). -/
def State.boundaryBreak (s : State) (seq : Nat) : State :=
  (((s.grid seq).map (·.breaker)).getD []).foldl (fun s core => s.breakDeadlock core (some seq))
    (s.modGrid seq fun q => { q with breaker := [] })

/-- The next round begins; the breaker acts first (R370), then pending pre-emptions are taken (R369). -/
def State.releaseGrid (s : State) (seq : Nat) : State :=
  let s := s.settleGrid seq
  let free (e : Nat × Team) : Nat × Team := (e.1, if e.2.seq == seq then s.releaseTeam e.2 else e.2)
  let s : State := { s with teams := s.teams.map free }
  let s := (s.modGrid seq fun q => { q with serial := false, round := q.round + 1 }).boundaryBreak seq
  (s.gangs.filter fun e => e.2.seq == seq).foldl (fun s e => s.boundaryPreempt e.1) s

/-- DET_BOUNDARY: the boundary of a DET grid goes on by one step: the buffered stores, then each held operation in its
slot, then the release (R362). -/
def execDetBoundary (seq : Nat) (s : State) : Result :=
  match s.grid seq with
  | none => .next s
  | some q =>
    if !q.packet.flags.getLsbD 0 || !s.boundaryDue q && !q.serial then .next s
    else if !q.serial then
      let s := s.commitAll seq (s.bufferedCount seq)
      .next (if s.bufferedCount seq == 0 && s.quietGrid seq then s.beginSerial seq else s)
    else if !s.quietGrid seq then .next s
    else
      match nextHeld q.held with
      | some h => .next (s.performHeld seq h)
      | none => .next (s.releaseGrid seq)

end Sys2Proof.Machine
end

