-- ==== Sys2Proof/Machine/MemEvents.lean ====
section
/-! DEFINITION. Translation registers, fault verdicts and storage errors (spec/18 R388, R389, R391, R392, R401 to R403,
spec/08 R196, R197). While a firmware stage has failed these registers answer nothing (R437). -/

namespace Sys2Proof.Machine

def State.modRelia (s : State) (f : Relia → Relia) : State := { s with relia := f s.relia }

/-- A write of a register outside the security block. -/
def State.unlessFailed (s : State) (f : State → State) : State := if s.registersOpen then f s else s

/-! ### Invalidation (R388, R389) -/

/-- The release of a write of TLBICTL or ASIDTAB (R388, R465): the writer's earlier stores reach the memory that walks read
(R384). Every dirty line homed here is written back, the copies stay. -/
def State.releaseTables (s : State) : State :=
  ((s.lines.filter fun e => e.2.dirty && e.2.pa / 2 ^ 52 == s.fabric.fmod.toNat).map (·.1)).foldl State.writeBack s

/-- A write of TLBICTL (R389): a release (R388); refused with ERR while BUSY or for SCOPE 3, otherwise an invalidation
begins. -/
def State.writeTlbictl (s : State) (v : W64) : State :=
  let marks : Tab Nat := s.cores.map fun e => (e.1, e.2.entered)
  s.releaseTables.modRelia fun r =>
    if r.tlbiBusy || v.extractLsb' 0 2 == 3 then { r with tlbiErr := true }
    else
      { r with
        tlbiErr := r.tlbiErr && !v.getLsbD 3
        tlbiAsid := v.extractLsb' 16 16, tlbiFlush := v.getLsbD 2, tlbiScope := v.extractLsb' 0 2
        tlbiBusy := true, tlbiMark := marks }

/-- TLBICTL (R388, R389). -/
def execTlbictl (value : W64) (s : State) : Result := .next (s.unlessFailed fun s => s.writeTlbictl value)

/-- The virtual range that the invalidation under way covers: the page holding TLBIVA at its mapped size, or 64 KiB if it
is not mapped, for SCOPE 0; otherwise everything. -/
def State.tlbiRange (s : State) : Nat × Nat :=
  if s.relia.tlbiScope == 0 then
    let va := s.relia.tlbiva.toNat % 2 ^ 48
    match if s.relia.asidtab.getLsbD 0 then s.walk s.relia.tlbiAsid va else .fault 0 with
    | .page p => (p.va, 2 ^ p.log2)
    | _ => (va / 65536 * 65536, 65536)
  else (0, 2 ^ 48)

/-- A translation that the invalidation removes. -/
def State.tlbiMatches (s : State) (e : TlbEntry) : Bool :=
  let r := s.tlbiRange
  s.relia.tlbiScope == 2 ||
    (e.tag == s.relia.tlbiAsid && decide (e.page.va < r.1 + r.2) && decide (r.1 < e.page.va + 2 ^ e.page.log2))

/-- Store queue entries of the ASID, checked before the invalidation began, that have not drained (R197). -/
def State.tlbiDrains (s : State) : Bool :=
  s.cores.any fun c => c.2.queue.any fun e =>
    decide (e.n < (Tab.find s.relia.tlbiMark c.1).getD 0) &&
      (s.relia.tlbiScope == 2 || (match e.loc with
        | .virt tag _ => tag == s.relia.tlbiAsid
        | .pool .. => e.tag == some s.relia.tlbiAsid))

/-- A virtual address of the covered range under the named tag ASID. -/
def State.tlbiCovers (s : State) (tag : BitVec 16) (va : Nat) : Bool :=
  let r := s.tlbiRange
  tag == s.relia.tlbiAsid && decide (r.1 ≤ va) && decide (va < r.1 + r.2)

/-- Stores and reductions on their way keep a translation that the invalidation removes: their line would come back under it. The
invalidation waits for them too, whenever they were checked (DEDUCED, log 85). -/
def State.tlbiStands (s : State) : Bool :=
  let old (tag : BitVec 16) (va : Nat) : Bool := s.relia.tlbiScope == 2 || s.tlbiCovers tag va
  let entry (e : QEntry) : Bool := e.page.isSome && (match e.loc with
    | .virt tag va => old tag va
    | .pool .. => false)
  let red (r : RedCmd) : Bool := r.pages.any fun p => old (tagOf r.asid (128 * p.1)) (128 * p.1 % 2 ^ 48)
  let held (h : Held) : Bool := match h.cmd with
    | .red r => red r
    | _ => false
  (s.cores.any fun c => c.2.queue.any entry) || (s.teams.any fun t => t.2.buf.any entry) || s.reds.any red ||
    s.grids.any fun q => q.2.held.any held

/-- An invalidation cannot complete yet. -/
def State.tlbiWaits (s : State) : Bool := s.tlbiDrains || s.tlbiStands

/-- With FLUSH the lines of the range leave every cache, those on their way too; those of windows are written home and kept
(R388). -/
def State.tlbiFlushLines (s : State) : State :=
  let keys := (s.lines.map (·.1)).filter fun k => s.tlbiCovers (BitVec.ofNat 16 (k / 2 ^ 41)) (k % 2 ^ 41 * 128)
  let wins := s.gangs.flatMap fun e => (e.2.windows.filter fun w => w.stat == .standing || w.stat == .closing).map fun w => (e.1, w)
  let inside := wins.flatMap fun x =>
    ((List.range (x.2.len / 128)).map fun n => (x.1, x.2, x.2.base + 128 * n)).filter fun y => s.tlbiCovers y.2.1.tag y.2.2
  let s := (keys.foldl State.evictLine s).staleFills fun x => x.fills (x.va / 128) && s.tlbiCovers 0 x.va
  inside.foldl (fun s y => s.flushWindowLine y.1 y.2.1 y.2.2) s

/-- TLB_INVALIDATION_DONE: the invalidation completes once the queues have drained, and BUSY falls (R388). -/
def execTlbInvalidationDone (s : State) : Result :=
  if !s.relia.tlbiBusy || s.tlbiWaits then .next s
  else
    let kept := s.tlb.filter fun e => !s.tlbiMatches e
    let s' := if s.relia.tlbiFlush then s.tlbiFlushLines else s
    .next ({ s' with tlb := kept }.modRelia fun r => { r with tlbiBusy := false, tlbiMark := [] })

/-- BASE and EN of ASIDTAB and MCBASE (R389). -/
def tableMask : W64 := 0x0000FFFFFFFFF001

/-- A write of ASIDTAB: the root table and its enable, a release (R389, R465). -/
def State.writeAsidtab (s : State) (v : W64) : State := s.releaseTables.modRelia fun r => { r with asidtab := v &&& tableMask }

/-- ASIDTAB (R389, R465). -/
def execAsidtab (value : W64) (s : State) : Result := .next (s.unlessFailed fun s => s.writeAsidtab value)

/-! ### Verdicts (R392) -/

/-- The token of a team of a grid that has faulted is outstanding no more (R392): the team is about to be stopped (R344). The
other tokens that stood when the grid faulted are gone with its fault; those of what goes on after it, the grid's engine operations
(R344) and its retirement's writes (R341), are outstanding (DEDUCED, log 99). -/
def State.staleFault (s : State) (f : Fault') : Bool :=
  ((f.grid.bind s.grid).map fun g => g.reason != 0).getD false && f.ofCore &&
    ((f.team.bind s.team).map fun t => t.stat == .running).getD false

/-- A verdict on an outstanding token: the access is tried again, or meets its fatal verdict when it is; any other write is
ignored (R392). -/
def State.answerFault (s : State) (v : W64) : State :=
  match s.relia.faults.find? fun f => f.token == v.setWidth 32 && !s.staleFault f with
  | none => s
  | some f =>
    s.modRelia fun r =>
      { r with faults := r.faults.filter (· != f), fatal := if v.getLsbD 32 then r.fatal ++ [f] else r.fatal }

/-- FQRESP: a verdict; a write with any other bit set is ignored (R392). -/
def execFqresp (value : W64) (s : State) : Result :=
  if value.toNat / 2 ^ 33 != 0 then .next s else .next (s.unlessFailed fun s => s.answerFault value)

/-! ### Storage errors (R401 to R403, R407) -/

/-- The vault of a stacked-DRAM address (R377). -/
def vaultOfPa (pa : Nat) : Nat := bitsOf pa 34 29

/-- Where an error is reported: the die that counts it, the record's source and the structure's number (R401, R403, R407). The
second tier, its controllers' TLBs and the egress TLB lie on no compute die. A core's cache region is part of its SRAM pool, on
its own die; its checker cache, for which R407 has no number, is counted with it (DESIGN CHOICE, log 70). -/
def State.siteOf (s : State) : ErrorSite → Option Nat × Nat × Nat
  | .row team _ _ =>
    let d := ((s.team team).map (·.core.toNat / 64)).getD 0
    (some d, srcDie d, 0)
  | .tile gang _ _ | .scratch gang _ _ =>
    let d := ((s.gang gang).map (·.cluster.toNat / 16)).getD 0
    (some d, srcDie d, 0)
  | .cacheLine tag granule =>
    let h := homeHash tag.toNat (32 * granule)
    (some (h % 4), srcSlice (h % 4) (h / 4), 1)
  | .coreLine core _ _ _ => (some (core.toNat / 64), srcDie (core.toNat / 64), 0)
  | .dram granule =>
    let pa := 32 * granule
    if pa < 2 ^ 37 then (some (dieOf pa), srcVault (dieOf pa) (vaultOfPa pa), 2) else (none, srcFront, 3)
  | .directory die => (some die.toNat, srcDie die.toNat, 4)
  | .tlb index =>
    match (s.tlb[index]?).filter fun e => e.tlb < 256 with
    | some e => (some (e.tlb / 64), srcDie (e.tlb / 64), 1)
    | none => (none, srcFront, 1)

/-- Count an error of a die (R403). -/
def State.countEcc (s : State) (die : Option Nat) (corrected : Bool) : State :=
  match die with
  | none => s
  | some n =>
    let d := s.die n
    s.setDie n (if corrected then { d with corr := d.corr + 1 } else { d with uncorr := d.uncorr + 1 })

/-- A corrected error is recorded at most once per source per millisecond, with the count since the last record. -/
def State.recordCorrected (s : State) (source structure_ : Nat) : State :=
  match Tab.find s.relia.eccAt source with
  | some (at_, n) =>
    if s.timeNs < at_ + 1000000 then s.modRelia fun r => { r with eccAt := Tab.put r.eccAt source (at_, n + 1) }
    else
      (s.modRelia fun r => { r with eccAt := Tab.put r.eccAt source (s.timeNs, 0) }).beacon source 0x30 1
        [(16, structure_), (24, n + 1)]
  | none =>
    (s.modRelia fun r => { r with eccAt := Tab.put r.eccAt source (s.timeNs, 0) }).beacon source 0x30 1
      [(16, structure_), (24, 1)]

/-- A granule is poisoned and Beacon notes it (R402, R407): its address, and whether it is a physical one. -/
def State.poisonedRecord (s : State) (source structure_ addr : Nat) (physical : Bool) : State :=
  s.beacon source 0x31 2 [(16, structure_), (24, addr), (32, physical.toNat)]

/-- A core holds a line dirty in its cache region: L2's copy of it is not the current one. -/
def State.dirtyAbove (s : State) (key : Nat) : Bool := s.cores.any fun e => e.2.l1.any fun l => l.key == key && l.dirty

/-- A granule of a cached line is poisoned (R401, R402). -/
def State.poisonCached (s : State) (tag : BitVec 16) (granule source structure_ : Nat) : State :=
  (s.setPoison (.virt tag (32 * granule))).poisonedRecord source structure_ (32 * granule) false

/-- An uncorrectable error takes its effect (R401): a clean copy is fetched again from behind it. -/
def State.uncorrectable (s : State) (site : ErrorSite) (source structure_ : Nat) : State :=
  match site with
  | .row team reg word =>
    s.modTeam team fun t =>
      if (t.row reg.toNat (word % 1024 / 32)).isSome then
        { t with rowErr := insertNat (1024 * reg.toNat + word % 1024) t.rowErr }
      else t
  | .tile gang core tile => s.modGang gang fun g => { g with tilePoison := insertNat (core.toNat * 2 ^ 16 + tile) g.tilePoison }
  | .cacheLine tag granule =>
    let key := lineKey tag (32 * granule)
    match Tab.find s.lines key with
    | none => s
    | some l => if l.dirty && !s.dirtyAbove key then s.poisonCached tag granule source structure_ else s
  | .coreLine core checker tag granule =>
    let key := lineKey tag (32 * granule)
    let c := s.core core.toNat
    if checker then s.setCore core.toNat { c with ckc := c.ckc.filter (· != key) }
    else if c.l1.any fun l => l.key == key && l.dirty then s.poisonCached tag granule source structure_
    else s.setCore core.toNat { c with l1 := c.l1.filter (·.key != key) }
  | .scratch gang group granule =>
    (s.setPoison (.pool gang group (32 * granule))).poisonedRecord source structure_ (32 * granule) false
  | .dram granule =>
    { s with physPoison := insertNat granule s.physPoison }.poisonedRecord source structure_ (32 * granule) true
  | .directory _ => s
  | .tlb index => { s with tlb := s.tlb.eraseIdx index }

/-- There is storage at a site. -/
def State.siteExists (s : State) : ErrorSite → Bool
  | .row team _ _ => (s.team team).isSome
  | .tile gang _ _ | .scratch gang _ _ => ((s.gang gang).map (·.stat == .resident)).getD false
  | .dram granule => hasMemory (32 * granule)
  | .tlb index => s.tlb[index]?.isSome
  | .cacheLine .. | .coreLine .. | .directory _ => true

/-- SOFT_ERROR: a storage error is corrected and counted, or takes its effect (R401, R403). -/
def execSoftError (site : ErrorSite) (corrected : Bool) (s : State) : Result :=
  if !s.siteExists site then .next s
  else
  let (die, source, structure_) := s.siteOf site
  let s := s.countEcc die corrected
  .next (if corrected then s.recordCorrected source structure_ else s.uncorrectable site source structure_)

end Sys2Proof.Machine
end

