-- ==== Sys2Proof/Machine/FabricEvents.lean ====
section
/-! DEFINITION. The fabric (spec/22 R435, R436, spec/23 R442 to R462): transactions accepted or failed, here and at peers, peer
copies and their removal, ports and lanes, intervals, the undo log, rollback and containment. -/

namespace Sys2Proof.Machine

def State.modFabric (s : State) (f : Fabric → Fabric) : State := { s with fabric := f s.fabric }

/-! ### The egress (R443, R450) -/

/-- Release the transaction at place `i` of the egress if it is held and may depart; its grid takes part in fabric traffic
then (R459). -/
def State.pumpAt (s : State) (i : Nat) : State :=
  match s.fabric.out[i]? with
  | none => s
  | some x =>
    if x.plane.isSome then s
    else
      match s.depart x (s.fabric.out.take i) with
      | none => s
      | some (x', s) => (s.modFabric fun f => { f with out := f.out.set i x' }).noteFabric x.grid

/-- Acknowledgements of invalidations leave in class 0, or wait for the meter (R449, R450). -/
def State.pumpAcks (s : State) : State :=
  s.fabric.acks.foldl (fun s p =>
    match s.passMeter p with
    | none => s.modFabric fun f => { f with acks := f.acks ++ [p] }
    | some s => s) (s.modFabric fun f => { f with acks := [] })

/-- Invalidations that wait depart, as the meter admits them (R449, R450). -/
def State.pumpInvals (s : State) : State :=
  s.fabric.invals.foldl (fun s i =>
    let put (s : State) (sent : Bool) : State := s.modFabric fun f => { f with invals := f.invals ++ [{ i with sent := sent }] }
    if i.sent then put s true
    else
      match s.departInval i.plane with
      | some s => put s true
      | none => put s false) (s.modFabric fun f => { f with invals := [] })

/-- Release what may depart, class by class (R449). -/
def State.pump (s : State) : State := (serviceOrder s.fabric.out).foldl State.pumpAt s.pumpAcks.pumpInvals

/-! ### Records (R436, R462) -/

/-- Record 0x74: the home of a peer line failed a transaction (R445). -/
def State.homeFault (s : State) (x : OutTxn) (write : Bool) : State :=
  s.beacon srcFront 0x74 2 [(16, x.va), (24, x.dest.toNat), (32, write.toNat)]

/-! ### Peer lines (R446 to R448) -/

/-- A copy of a region has been taken through a plane: its switch names this module from then on (R447). -/
def State.takeCopy (s : State) (region : Nat) (plane : Option Nat) : State :=
  match plane with
  | none => s
  | some p => s.modFabric fun f => { f with took := Tab.put f.took region (insertNat p ((Tab.find f.took region).getD [])) }

/-- A read-only copy of a peer's line enters the caches with its marks, and with what the home knows of its writers (R373, R402,
R446). -/
def State.fillPeer (s : State) (va : Nat) (p : Page) (plane : Option Nat) (data : List Byte) (poison : BitVec 4) : State :=
  if (Tab.find s.lines (lineKey 0 va)).isSome then s
  else
    let base := va % 2 ^ 48 / 128 * 128
    let bytes := (List.range 128).map fun i => (i, data.getD i 0)
    { (s.homeWrites (.virt 0 base)).takeCopy (va / 512) plane with
      vmem := Memory.writeAt s.vmem (vkey 0 base) bytes
      lines := Tab.put s.lines (lineKey 0 va)
        { pa := p.pa + (base - p.va), r := p.r, w := p.w, x := p.x, u := p.u, c := p.c, poison := poison
          plane := plane } }

/-- The planes whose switches name this module for a region of a peer (R447): it has taken a copy there, which may have been evicted
since, or one is on its way. -/
def State.namedPlanes (s : State) (region : Nat) : List Nat :=
  ((Tab.find s.fabric.took region).getD [] ++
    (s.fabric.out.filter fun x => x.fills (x.va / 128) && x.va / 512 == region).filterMap (·.plane)).eraseDups

/-- PEER_INVALIDATION: a home has the copies of a region removed, those on their way among them, and is sent an
acknowledgement through each plane whose switch names this module, whether a copy still stands here or not (R447, R449). -/
def execPeerInvalidation (region : Nat) (s : State) : Result :=
  let planes := s.namedPlanes region
  let s := (s.dropRegion region).staleFills fun x => x.va / 512 == region
  .next (s.modFabric fun f => { f with acks := f.acks ++ planes, took := Tab.erase f.took region }).pumpAcks

/-! ### This module's transactions at their home (R435, R445) -/

/-- A write of this module has been accepted at its home: this module's copies are gone, and the bytes were written by
its grid or by no grid (R373, R447). -/
def State.writtenAway (s : State) (x : OutTxn) (bytes : List (Nat × Byte)) : State :=
  (s.dropRegion (x.va / 512)).noteWrite x.grid (.virt 0 (x.va / 128 * 128)) bytes

/-- The entry of a checked store queue that a transaction carries leaves the queue. -/
def State.dropSent (s : State) (x : OutTxn) (n : Nat) : State :=
  match x.team.bind s.team with
  | none => s
  | some t =>
    match (s.core t.core.toNat).queue.find? fun e => e.n == n && some e.team == x.team with
    | none => s
    | some e => s.dropEntry t.core.toNat e

/-- A write of an I/O-die agent has ended: what awaits it learns so (R341, R406, R433, R438). A report or a completion word,
steps 5 and 6 of a grid's writes, is not delivered where its CRC check has failed twice either (R341, R435). -/
def State.agentSettled (s : State) (x : OutTxn) (failed : Bool) (crc : CrcResult) : State :=
  match x.id with
  | none => s
  | some id =>
    let mark (w : AgentWrite) : AgentWrite :=
      if w.id == id then
        { w with stat := if failed || (crc == .failed && decide (5 ≤ w.step)) then .failed else .accepted }
      else w
    { s with
      front := { s.front with writes := s.front.writes.map mark }
      relia := { s.relia with beacon := s.relia.beacon.settle id failed, fq := s.relia.fq.settle id failed } }

/-- An AMO's answer arrives (R232, R373, R435, R445). -/
def State.amoAnswer (s : State) (x : OutTxn) (data : List Byte) (bad : Bool) : State :=
  match s.amos.find? fun a => some a.team == x.team && a.op == x.op with
  | none => s
  | some a =>
    if bad then s.amoPoison a
    else
      let s := s.homeWrites (.virt 0 (x.va / 128 * 128))
      let seen := (x.grid.map fun q => s.outsideAt q 0 x.va 8).getD false
      let s := if seen then s.modTeam a.team fun t => t.detEvent 5 a.pc else s
      (s.writtenAway x ((List.range 8).map fun i => (x.va % 128 + i, 0))).amoArrive a (BitVec.ofNat 64 (leNat (data.take 8)))

/-- An update has ended at a peer: its operation holds the classes that it raised, and whether it was performed on no byte
(R289, R435, R445). -/
def State.updateAnswer (s : State) (x : OutTxn) (flags : BitVec 5) (bad : Bool) : State :=
  let red (r : RedCmd) : RedCmd :=
    if some r.team == x.team && r.op == x.op then { r with flags := r.flags ||| flags, failed := r.failed || bad } else r
  let entry (e : MEntry) : MEntry :=
    if some e.team == x.team && e.op == x.op then { e with flags := e.flags ||| flags, failed := e.failed || bad } else e
  { s with
    reds := s.reds.map red
    clusters := s.clusters.map fun c => (c.1, { c.2 with table := c.2.table.map entry }) }

/-- The last part of a reduction or of an MDRAINA at a peer has been accepted: the whole of it is applied now (R167, R219). -/
def State.finishUpdate (s : State) (x : OutTxn) : State :=
  match s.reds.find? fun r => some r.team == x.team && r.op == x.op with
  | some r => if r.acted then s.performRed r else s
  | none =>
    let entry (c : Nat × ClusterRegs) : Option (Nat × MEntry) :=
      (c.2.table.find? fun e => some e.team == x.team && e.op == x.op && e.stat == .sent).map (c.1, ·)
    match s.clusters.findSome? entry with
    | some (cl, e) => s.completeMEntry cl e
    | none => s

/-- The bytes of a launch slot are accepted at their home, or lost there (log 49): the queue takes the slot, and the status
of the LAUNCH is committed (R349). -/
def State.slotAnswer (s : State) (k : Nat) : State :=
  match s.team k with
  | none => s
  | some t =>
    match t.await with
    | some (.launch d q) =>
      let x := s.front.queues.getD q.toNat {}
      let x := { x with tail := x.tail + 1, parents := Tab.put x.parents x.tail.toNat t.seq }
      { s with front := { s.front with queues := s.front.queues.setIfInBounds q.toNat x } }.setTeam k
        { t.arriveS d.toNat 0 with await := none }
    | _ => s

/-- What a transaction comes to at its home: accepted with data, or failed there. A peer store of a team that fails sets
MXFLAGS.POISON, an update only by its CRC check (R290, R435, R445). -/
def State.settleOut (s : State) (x : OutTxn) (reply : HomeReply) (crc : CrcResult) : State :=
  let (data, marks, flags) := match reply with
    | .accepted d p f => (d, p, f)
    | .failed => ([], 0, 0)
  let failed := reply == .failed
  let bad := failed || crc == .failed
  let lost (s : State) (write : Bool) : State := if failed then s.homeFault x write else s
  match x.what with
  | .fill p =>
    let s := s.countCrc 5 0 x.va crc
    let s := if x.stale || (x.spec && failed) then s else s.fillPeer x.va p x.plane data (if bad then 15 else marks)
    if x.spec then s else lost s false
  | .store n bytes => lost ((if failed then s.flagPoison x.team else s.writtenAway x bytes).dropSent x n) true
  | .put bytes => lost (if failed then s.flagPoison x.team else s.writtenAway x bytes) true
  | .write bytes => lost ((if failed then s.flagPoison x.team else s.writtenAway x bytes).agentSettled x failed crc) true
  | .amo => lost ((s.countCrc 5 0 x.va crc).amoAnswer x data bad) true
  | .update =>
    let s := s.updateAnswer x flags bad
    lost ((if crc == .failed then s.flagPoison x.team else s).finishUpdate x) true
  | .slot bytes =>
    let s := if failed then s else s.writtenAway x bytes
    lost (match x.team with
      | none => s
      | some k => s.slotAnswer k) true

/-- An earlier transaction of the same region and class is on its way, and arrives first (R443). -/
def sentBefore (x : OutTxn) (l : List OutTxn) : Bool :=
  l.any fun y => y.dest == x.dest && y.va / 512 == x.va / 512 && y.cls == x.cls && y.plane.isSome

/-- An outstanding transaction ends at its home, in its order; one to a dead module fails whether it is held or on its way
(R443, R455). -/
def State.finishOut (s : State) (n : Nat) (reply : HomeReply) (crc : CrcResult) : State :=
  match s.fabric.out[n]? with
  | none => s
  | some x =>
    let dead := s.fabric.deadModules.contains x.dest.toNat
    if !dead && (x.plane.isNone || sentBefore x (s.fabric.out.take n)) then s
    else
      ((s.modFabric fun f => { f with out := f.out.eraseIdx n }).settleOut x
        (if dead then .failed else reply) (if dead then .good else crc)).pump

/-! ### The undo log (R457) -/

/-- Write whole granules of local memory, but for those of offline layers (R400, R402). -/
def State.physWrite (s : State) (pa : Nat) (bytes : List Byte) : State :=
  (List.range (bytes.length / 32)).foldl (fun s i =>
    let g := pa / 32 + i
    if !hasMemory (32 * g) || s.offlineAt g then s
    else
      { s with phys := Memory.writeBytes s.phys (32 * g) ((bytes.drop (32 * i)).take 32)
               physPoison := s.physPoison.filter (· != g) }) s

/-- The 160 bytes of a record. -/
def UndoRec.bytes (r : UndoRec) : List Byte :=
  leBytes 8 r.va ++ leBytes 8 (r.module.toNat + r.stamp.toNat * 2 ^ 16) ++ List.replicate 16 0 ++ r.line

/-- A place of the log that no record holds, from a free one on (log 27). -/
def State.undoSlot (s : State) : Nat :=
  let cap := s.fabric.undosize.toNat
  let from_ := Config.choice s.freeIdx
  (((List.range (s.fabric.undo.length + 1)).map fun i => (from_ + i) % cap).find? fun n =>
    !(s.fabric.undo.any fun r => r.slot == n)).getD 0

/-- The records stamped before interval `n` are freed and OLDEST advances to it. -/
def State.freeBefore (s : State) (n : Nat) : State :=
  s.modFabric fun f =>
    { f with undo := f.undo.filter fun r => n ≤ r.stamp.toNat
             oldest := if f.oldest.toNat < n then BitVec.ofNat 32 n else f.oldest }

/-- The records of the oldest interval are freed. -/
def State.freeOldest (s : State) : State :=
  match s.fabric.undo with
  | [] => s
  | r :: rest => s.freeBefore (rest.foldl (fun m r => min m r.stamp.toNat) r.stamp.toNat + 1)

/-- The local physical address of the home memory of a line that stands here. -/
def State.homeOf (s : State) : Loc → Option Nat
  | .virt tag va => (Tab.find s.lines (lineKey tag va)).map (·.pa % 2 ^ 52)
  | .pool g grp off =>
    (s.gang g).bind fun gg =>
      (gg.windows.find? fun w => w.group == grp && decide (w.off ≤ off) && decide (off < w.off + w.len)).bind fun w =>
        (Tab.find w.home ((off - w.off) / 128)).map (·.pa % 2 ^ 52)

/-- Log a line before the first write of a peer to it that is stamped with an interval (R457). -/
def State.logUndo (s : State) (src : BitVec 12) (stamp : BitVec 32) (va : Nat) (line : Loc) : State :=
  let va := va / 128 * 128
  if !s.fabric.undobase.getLsbD 0 || s.fabric.undo.any (fun r => r.va == va && r.stamp == stamp) then s
  else
    let s := if s.fabric.undosize.toNat ≤ s.fabric.undo.length then s.freeOldest else s
    if s.fabric.undosize.toNat ≤ s.fabric.undo.length then s
    else
      let mark (i : Nat) : BitVec 4 := if s.poisonLoc (line.add (32 * i)) then 1#4 <<< i else 0
      let r : UndoRec :=
        { va := va, module := src, stamp := stamp, slot := s.undoSlot, pa := s.homeOf line
          marks := mark 0 ||| mark 1 ||| mark 2 ||| mark 3
          line := (List.range 128).map fun i => s.readLoc (line.add i) }
      let base := s.fabric.undobase.toNat % 2 ^ 52 / 4096 * 4096
      (s.physWrite (base + 160 * r.slot) r.bytes).modFabric fun f => { f with undo := f.undo ++ [r] }

/-! ### Peers' transactions at this home (R435, R444 to R447, R457) -/

/-- A doubleword in its line, as places and bytes. -/
def wordBytes (o : Nat) (n v : Nat) : List (Nat × Byte) := (List.range n).map fun i => (o + i, (leBytes n v).getD i 0)

/-- The bytes of one addend's new value (R167). -/
def State.updateStep (s : State) (form : BitVec 2) (line : Loc) (e : Nat × W32) : List (Nat × Byte) :=
  let n := redWidth form
  wordBytes e.1 n (redStep form (leNat ((List.range n).map fun i => s.readLoc (line.add (e.1 + i)))) e.2).1

/-- What a peer's write stores in its line: an AMO on poison, and whatever failed its CRC but a store, changes nothing. -/
def State.peerBytes (s : State) (w : HeldWrite) (loc : Loc) : Option (List (Nat × Byte)) :=
  match w.op with
  | .load _ => none
  | .store bytes => some bytes
  | .amo op a b =>
    if w.bad || s.poisonLoc loc then none
    else
      (amoNew op (BitVec.ofNat 64 (leNat ((List.range 8).map fun i => s.readLoc (loc.add i)))) a b).map fun v =>
        wordBytes loc.inLine 8 v.toNat
  | .update _ _ => if w.bad then none else some []

/-- The further lines that a peer's write reaches: those of an update's addends, whose places count from the start of its first line
(R167, R219). -/
def HeldWrite.further (w : HeldWrite) : List Nat :=
  match w.op with
  | .update _ adds => ((adds.filter fun e => 128 ≤ e.1).map fun e => w.va / 128 + e.1 / 128).eraseDups
  | _ => []

/-- The 512-byte regions of a peer's write. -/
def HeldWrite.regions (w : HeldWrite) : List Nat := w.va / 512 :: w.further.map (· / 4)

/-- The addends of an update are applied in order (R167), `line` being its first line. -/
def State.applyUpdate (s : State) (w : HeldWrite) (line : Loc) : State :=
  match w.op with
  | .update form adds => adds.foldl (fun s e =>
      let at_ := if e.1 < 128 then line else (s.locOf 0 (w.va / 128 * 128 + e.1)).line
      s.performStore none at_ (s.updateStep form at_ (e.1 % 128, e.2))) s
  | _ => s

/-- A line has been written by a peer (R459). -/
def State.peerWrites (s : State) (line : Loc) : State :=
  { s with fabric := { s.fabric with
      peerLines := if s.fabric.peerLines.contains line then s.fabric.peerLines else s.fabric.peerLines ++ [line] } }

/-- Perform a peer's write at a line that stands here. -/
def State.performPeer (s : State) (w : HeldWrite) (loc : Loc) : State :=
  match s.peerBytes w loc with
  | none => s
  | some bytes =>
    let at_ (s : State) (l : Nat) : Loc := (s.locOf 0 (128 * l)).line
    let s := w.further.foldl (fun s l => s.logUndo w.src w.stamp (128 * l) (at_ s l)) (s.logUndo w.src w.stamp w.va loc.line)
    let s := (s.performStore none loc.line bytes).applyUpdate w loc.line
    let s := if w.bad then s.poisonBytes loc.line bytes else s
    w.further.foldl (fun s l => s.peerWrites (at_ s l)) (s.peerWrites loc.line)

/-- The further lines of a peer's write are made present: none where this home refuses one of them, otherwise whether the write
may be performed on all of them, what stands in its way being asked to go. -/
def State.furtherReady (s : State) : List Nat → Option (State × Bool)
  | [] => some (s, true)
  | l :: rest =>
    match s.reach (vaultTlb 0 (128 * l)) 0 (128 * l) .store false false with
    | .ready s _ =>
      let free := (s.planesOf 0 (128 * l)).isEmpty && !s.heldAgainst none 0 (128 * l)
      (State.furtherReady (if free then s else s.invalidate 0 (128 * l)) rest).map fun r => (r.1, free && r.2)
    | .held => (State.furtherReady s rest).map fun r => (r.1, false)
    | _ => none

/-- A peer's write reaches this home: it waits for the removal of peer copies (R447), for a hold (R242), for a window that
closes (R313) and behind a write of its module to the region that waits (R443), or is performed; one whose walk fails, or that
this home's page refuses, is discarded (R445). An update waits, is discarded, or is performed as a whole (R219). -/
def State.acceptPeer (s : State) (w : HeldWrite) : State :=
  let hold (s : State) : State := (s.invalidate 0 w.va).modFabric fun f => { f with heldWrites := f.heldWrites ++ [w] }
  if s.fabric.heldWrites.any fun x => x.src == w.src && x.regions.any (w.regions.contains ·) then hold s
  else
    match s.reach (vaultTlb 0 w.va) 0 w.va .store false false with
    | .ready s loc =>
      match s.furtherReady w.further with
      | none => s
      | some (s, go) =>
        if go && (s.planesOf 0 w.va).isEmpty && !s.heldAgainst none 0 w.va then s.performPeer w loc else hold s
    | .held => hold s
    | _ => s

/-- A peer's load: its plane is recorded for the region (R447). -/
def State.peerLoad (s : State) (va : Nat) (plane : Nat) : State :=
  match s.reach (vaultTlb 0 va) 0 va .load false false with
  | .ready s _ =>
    let r := vkey 0 va / 512
    s.modFabric fun f => { f with planes := Tab.put f.planes r (insertNat plane ((Tab.find f.planes r).getD [])) }
  | _ => s

/-- A peer's transaction is not accepted yet: its line is held (R242), its window closes (R313), or it is a load through a plane
whose copies of the region are being removed (R447; log 21). -/
def State.peerBlocked (s : State) (va : Nat) (op : PeerOp) : Bool :=
  s.heldAgainst none 0 va ||
    (match s.findWindow 0 va with
      | some (_, w) => w.stat == .closing
      | none => false) ||
    (match op with
      | .load plane => s.fabric.invals.any fun i => i.plane == plane.toNat && i.region == vkey 0 va / 512
      | _ => false)

/-- A peer's transaction reaches this module (R435, R455). -/
def State.receive (s : State) (src : BitVec 12) (stamp : BitVec 32) (va : Nat) (op : PeerOp) (crc : CrcResult) : State :=
  if s.fabric.deadModules.contains src.toNat || s.peerBlocked va op then s
  else
    let s := s.countCrc 5 0 va crc
    match op with
    | .load plane => s.peerLoad va plane.toNat
    | _ => s.acceptPeer { src := src, stamp := stamp, va := va, op := op, bad := crc == .failed }

/-- DESTINATION_ACCEPTANCE: a transaction reaches its destination L2 (R435). One between two dies of the module meets its
outcome when its source next sends one. -/
def execDestinationAcceptance (t : Transit) (crc : CrcResult) (s : State) : Result :=
  match t with
  | .outgoing n reply => .next (s.finishOut n reply crc)
  | .incoming src stamp va op => .next (s.receive src stamp va op crc)
  | .within src =>
    .next { s with relia := { s.relia with crcNext := if src ≤ 4 then Tab.put s.relia.crcNext src crc else s.relia.crcNext } }

/-! ### Acknowledged removals (R447, R448) -/

/-- Take a plane out of the entries of the regions that `p` admits. -/
def State.clearPlane (s : State) (plane : Nat) (p : Nat → Bool) : State :=
  s.modFabric fun f =>
    { f with
      planes := (f.planes.map fun e => if p e.1 then (e.1, e.2.filter (· != plane)) else e).filter fun e => !e.2.isEmpty
      invals := f.invals.filter fun i => !(i.plane == plane && p i.region) }

/-- The writes whose regions no peer holds any longer are performed, in order; the others go on waiting. -/
def State.releaseHeld (s : State) : State :=
  s.fabric.heldWrites.foldl State.acceptPeer (s.modFabric fun f => { f with heldWrites := [] })

/-- The home has sent an invalidation of a region to a plane. -/
def State.invalSent (s : State) (plane region : Nat) : Bool :=
  s.fabric.invals.any fun i => i.plane == plane && i.region == region && i.sent

/-- INVALIDATION_ACK: the copies of a region obtained through a plane are gone, as the invalidation that the home has sent
there asked (R447). -/
def execInvalidationAck (plane : BitVec 6) (region : Nat) (s : State) : Result :=
  if s.invalSent plane.toNat region then .next (s.clearPlane plane.toNat (· == region)).releaseHeld else .next s

/-- SWITCH_REMOVAL_REPORT: every copy obtained through a plane is gone (R448). -/
def execSwitchRemovalReport (plane : BitVec 6) (s : State) : Result :=
  .next (s.clearPlane plane.toNat fun _ => true).releaseHeld

/-! ### Deaths (R443, R454, R455, R458 to R460) -/

/-- The grids that have taken part in fabric traffic since a boundary (R459). -/
def State.fabricGrids (s : State) (a : Nat) : List Nat :=
  (s.grids.filter fun e => e.2.stat != .retired && e.2.reason == 0 &&
    (match e.2.fabricSince with
      | some b => decide (a ≤ b)
      | none => false)).map (·.1)

/-- Restore the line of a record with its marks (R402, R459): where the package holds it, in a window's pool or cached, and
otherwise in its home memory. -/
def State.restoreLine (s : State) (r : UndoRec) : State :=
  let bytes : List (Nat × Byte) := (List.range 128).map fun i => (i, r.line.getD i 0)
  let marked := [0, 1, 2, 3].filter (r.marks.getLsbD ·)
  let loc := s.locOf 0 r.va
  if (s.findWindow 0 r.va).isSome || (Tab.find s.lines (lineKey 0 r.va)).isSome then
    marked.foldl (fun s i => s.setPoison (loc.line.add (32 * i))) (s.performStore none loc.line bytes)
  else
    match r.pa with
    | none => s
    | some pa =>
      let s := (s.physWrite pa r.line).noteWrite none loc.line bytes
      { s with physPoison := marked.foldl (fun l i => insertNat (pa / 32 + i) l) s.physPoison }

/-- Rollback to boundary `a` (R459). -/
def State.rollback (s : State) (m : BitVec 12) (a : BitVec 32) : State :=
  let stopped := s.fabricGrids a.toNat
  let undone := s.fabric.undo.filter fun r => a.toNat ≤ r.stamp.toNat
  let s := stopped.foldl (fun s g => s.faultGrid g 9) s
  let s := undone.reverse.foldl State.restoreLine s
  let s := s.modFabric fun f =>
    { f with undo := f.undo.filter fun r => r.stamp.toNat < a.toNat, target := a, state := 0 }
  s.beacon srcFront 0x71 2 [(16, m.toNat), (24, a.toNat), (32, undone.length), (40, stopped.length)]

/-- Containment (R460). -/
def State.contain (s : State) (m : BitVec 12) (a : BitVec 32) : State :=
  let s := (s.fabricGrids a.toNat).foldl (fun s g => s.faultGrid g 10) s
  (s.modFabric fun f => { f with state := 2 }).beacon srcFront 0x72 3
    [(16, m.toNat), (24, a.toNat), (32, s.fabric.oldest.toNat)]

/-- Fail every outstanding transaction to a module (R455 step 3). -/
def State.failAll (s : State) (m : Nat) : State :=
  (List.range s.fabric.out.length).foldl (fun s _ =>
    match s.fabric.out.findIdx? fun x => x.dest.toNat == m with
    | none => s
    | some n => s.finishOut n .failed .good) s

/-- A module is dead from boundary `a` (R455): only the first notice counts (R454). -/
def State.declareDead (s : State) (m : BitVec 12) (a : BitVec 32) : State :=
  if s.fabric.deadModules.contains m.toNat || m == s.fabric.fmod then s
  else
    let s := s.modFabric fun f =>
      { f with dead := m, deadModules := insertNat m.toNat f.deadModules
               heldWrites := f.heldWrites.filter fun w => w.src != m }
    let s := s.beacon srcFront 0x70 3 [(16, m.toNat), (24, a.toNat)]
    let s := (s.dropPeerLines fun _ l => l.pa / 2 ^ 52 == m.toNat).failAll m.toNat
    if s.fabric.undobase.getLsbD 0 && s.fabric.oldest.toNat ≤ a.toNat then s.rollback m a else s.contain m a

/-- DEATH_NOTICE: a switch declares a module dead (R454, R455). -/
def execDeathNotice (m : BitVec 12) (boundary : BitVec 32) (s : State) : Result := .next (s.declareDead m boundary)

/-- NO_USABLE_PLANE_TIMEOUT: transactions to a module have been held for 50 ms without a usable plane: this module treats
it as dead (R443). The boundary is the switches' to know: a free value (log 26). -/
def execNoUsablePlaneTimeout (m : BitVec 12) (s : State) : Result :=
  if (s.usable m.toNat).isEmpty && s.fabric.out.any fun x => x.dest == m && x.plane.isNone then
    .next (s.declareDead m (BitVec.ofNat 32 (Config.deathBoundary s.freeIdx)))
  else .next s

/-! ### Intervals (R454, R456) -/

/-- BOUNDARY_MARKER: boundary `e` arrives, unless FCKPT.PERIOD stops boundaries (R442, R456). The records older than the
oldest boundary that some live module has not acknowledged are freed: what the others have acknowledged is a free value
(R457; log 78). -/
def execBoundaryMarker (e : BitVec 32) (s : State) : Result :=
  if s.fabric.period == 0 then .next s
  else
    let unacked := min (Config.oldestUnacked s.freeIdx) (s.fabric.acked.toNat + 1)
    .next ((s.modFabric fun f => { f with current := e, boundaries := f.boundaries ++ [e] }).freeBefore (unacked - 1))

/-- BOUNDARY_ACK: the oldest boundary that awaits it is acknowledged once every transaction stamped with the interval before
it has been accepted (R456). -/
def execBoundaryAck (s : State) : Result :=
  match s.fabric.boundaries with
  | [] => .next s
  | e :: rest =>
    if s.fabric.out.any fun x => x.plane.isSome && x.stamp == e - 1 then .next s
    else .next (s.modFabric fun f => { f with acked := e, boundaries := rest })

/-- HEARTBEAT: one leaves on every port that is up (R454). -/
def execHeartbeat (s : State) : Result :=
  .next (s.modFabric fun f =>
    { f with ports := f.ports.map fun p => if p.up then { p with heartbeats := p.heartbeats + 1 } else p })

/-! ### Ports (R450, R452, R453) -/

/-- FPSTAT (R452). -/
def Port.fpstat (p : Port) : W64 :=
  let state := if p.lane0.ok && p.lane1.ok then 0 else if p.up then 1 else 2
  BitVec.ofNat 64 (p.lane1.margin.toNat * 2 ^ 40 + p.lane0.margin.toNat * 2 ^ 32 + p.lretry.toNat * 2 ^ 16 + state * 16 +
    (if p.warn then 8 else 0) + (if p.degraded then 4 else 0) + (if p.lane1.ok then 2 else 0) + (if p.lane0.ok then 1 else 0))

/-- A lane of a port. -/
def Port.lane (p : Port) (lane1 : Bool) : FLane := if lane1 then p.lane1 else p.lane0
def Port.setLane (p : Port) (lane1 : Bool) (l : FLane) : Port := if lane1 then { p with lane1 := l } else { p with lane0 := l }

/-- Record 0x73 (R453, R462). -/
def State.portRecord (s : State) (n : Nat) : State :=
  s.beacon srcFront 0x73 1 [(16, n), (24, (s.port n).fpstat.toNat)]

/-- METER_WINDOW: a 10 µs window of a port's meter begins (R450). -/
def execMeterWindow (port : BitVec 6) (s : State) : Result :=
  .next (s.modPort port.toNat fun p => { p with admitted := 0 }).pump

/-- MARGIN_PUBLISH: the eye margins of a port's lanes are published (R452, R453). -/
def execMarginPublish (port : BitVec 6) (margin0 margin1 : BitVec 8) (s : State) : Result :=
  .next (s.modPort port.toNat fun p =>
    { p with lane0 := { p.lane0 with margin := margin0 }, lane1 := { p.lane1 with margin := margin1 } })

/-- A lane's margin lies below WARNT. -/
def Port.weak (p : Port) : Bool := p.lane0.margin < p.warnt || p.lane1.margin < p.warnt

/-- MARGIN_WARNING: a lane's margin has stayed below WARNT for 1 ms (R453). -/
def execMarginWarning (port : BitVec 6) (s : State) : Result :=
  if port.toNat < 36 && (s.port port.toNat).weak then
    .next ((s.modPort port.toNat fun p => { p with warn := true }).portRecord port.toNat)
  else .next s

/-- A lane is removed from a port; flits in flight are sent again (R453; log 25). -/
def Port.removeLane (p : Port) (lane1 : Bool) (retries : Nat) : Port :=
  { p.setLane lane1 { p.lane lane1 with ok := false, retraining := false } with
    degraded := true, lretry := BitVec.ofNat 16 (min 0xFFFF (p.lretry.toNat + retries)) }

/-- LANE_REMOVAL: a lane falls below DEGT or loses lock; a port without lanes is down, and what was obtained through its
plane is removed before any other transaction is sent (R443, R448, R453). -/
def execLaneRemoval (port : BitVec 6) (lane1 : Bool) (s : State) : Result :=
  let n := port.toNat
  if n < 36 && ((s.port n).lane lane1).ok then
    let s := (s.modPort n fun p => p.removeLane lane1 (Config.linkRetries s.freeIdx)).portRecord n
    let s := if (s.port n).up then s
      else
        let s := (s.dropPeerLines fun _ l => l.plane == some n).staleFills fun x => x.plane == some n
        s.modFabric fun f => { f with took := (f.took.map fun e => (e.1, e.2.filter (· != n))).filter fun e => !e.2.isEmpty }
    .next s.pump
  else .next s

/-- LANE_RETRAIN: a removed lane is retrained (R453). -/
def execLaneRetrain (port : BitVec 6) (lane1 : Bool) (s : State) : Result :=
  .next (s.modPort port.toNat fun p =>
    let l := p.lane lane1
    if l.ok then p else p.setLane lane1 { l with retraining := true })

/-- LANE_RETURN: a retrained lane whose margin has stayed at or above WARNT for 100 ms returns to use (R453). -/
def execLaneReturn (port : BitVec 6) (lane1 : Bool) (s : State) : Result :=
  .next (s.modPort port.toNat fun p =>
    let l := p.lane lane1
    if l.retraining && p.warnt ≤ l.margin then p.setLane lane1 { l with ok := true, retraining := false } else p).pump

/-! ### Registers with steps of their own (R442, R454, R460) -/

/-- A write of FMOD: the module's number, and the end of containment (R442, R460). -/
def State.writeFmod (s : State) (v : W64) : State :=
  s.modFabric fun f => { f with fmod := v.setWidth 12, state := if f.state == 2 then 0 else f.state }

/-- FMOD_WRITE (R442, R460). -/
def execFmodWrite (value : W64) (s : State) : Result := .next (s.unlessFailed fun s => s.writeFmod value)

/-- V and PLANES of a routing entry. -/
def routeMask : W64 := 0x8000000FFFFFFFFF

/-- A write of ROUTEm: V set after it was clear makes a dead module reachable again (R442, R454). -/
def State.writeRoute (s : State) (m : BitVec 12) (v : W64) : State :=
  let revived := v.getLsbD 63 && !(s.route m.toNat).getLsbD 63 && s.fabric.deadModules.contains m.toNat
  let s := if revived then s.dropPeerLines fun _ l => l.pa / 2 ^ 52 == m.toNat else s
  (s.modFabric fun f =>
    { f with routes := Tab.put f.routes m.toNat (v &&& routeMask)
             deadModules := if revived then f.deadModules.filter (· != m.toNat) else f.deadModules }).pump

/-- ROUTE_WRITE (R442). -/
def execRouteWrite (m : BitVec 12) (value : W64) (s : State) : Result := .next (s.unlessFailed fun s => s.writeRoute m value)

end Sys2Proof.Machine
end

