-- ==== Sys2Proof/Machine/Package.lean ====
section
/-! DEFINITION. The package (spec/22 R428 to R440, spec/16 R334, spec/18 R389, R393, spec/23 R442, R452): the register blocks of
window A, the apertures, boot, attestation, telemetry, the module power cap. -/

namespace Sys2Proof.Machine

/-! ### Queues (R334, R390) -/

/-- A register of a queue as read. -/
def State.queueRead (s : State) (q : Queue) (n : Nat) : W64 :=
  match n with
  | 0 => q.base
  | 1 =>
    BitVec.ofNat 64 ((s.queueBlocked q).toNat * 2 ^ 12 + q.log * 2 ^ 8 + q.badtail.toNat * 16 + q.maxlvl.toNat * 4 +
      q.devok.toNat * 2 + q.en.toNat)
  | 2 => q.head.setWidth 64
  | _ => q.tail.setWidth 64

/-- A write of a register of a queue. -/
def Queue.write (q : Queue) (n : Nat) (v : W64) : Queue :=
  match n with
  | 0 => if q.en then q else { q with base := v &&& maskBits 47 7 }
  | 1 =>
    { q with
      logslots := if q.en then q.logslots else v.extractLsb' 8 4
      badtail := q.badtail && !v.getLsbD 4, maxlvl := v.extractLsb' 2 2, devok := v.getLsbD 1, en := v.getLsbD 0 }
  | 2 => q
  | _ => q.writeTail (v.setWidth 32)

/-- The launch front end block: PREEMPT reads as zero. -/
def State.frontRegRead (s : State) (o : Nat) : W64 :=
  if 0x10000 ≤ o && o < 0x10800 then s.queueRead (s.queue (BitVec.ofNat 6 ((o - 0x10000) / 32))) (o % 32 / 8)
  else if 0x20000 ≤ o && o < 0x20200 then (s.queue (BitVec.ofNat 6 ((o - 0x20000) / 8))).asid.setWidth 64
  else 0

def State.frontRegWrite (s : State) (o : Nat) (v : W64) : State :=
  if o == 0x800 then s.writePreempt v
  else if 0x10000 ≤ o && o < 0x10800 then
    let q := BitVec.ofNat 6 ((o - 0x10000) / 32)
    s.setQueue q ((s.queue q).write (o % 32 / 8) v)
  else if 0x20000 ≤ o && o < 0x20200 then
    let q := BitVec.ofNat 6 ((o - 0x20000) / 8)
    s.setQueue q { s.queue q with asid := v.setWidth 16 }
  else s

/-! ### The reliability block (R389, R392, R393, R435, R442, R452) -/

/-- LOGN as read: 8 outside 6 to 20. -/
def Ring.log (r : Ring) : Nat := if 6 ≤ r.logn.toNat && r.logn.toNat ≤ 20 then r.logn.toNat else 8

/-- A ring's register as read (R393). -/
def Ring.read (r : Ring) (n : Nat) : W64 :=
  match n with
  | 0 => r.base
  | 1 => BitVec.ofNat 64 (r.ovf.toNat * 2 ^ 8 + r.log * 2 + r.en.toNat)
  | 2 => r.head.setWidth 64
  | 3 => r.tail.setWidth 64
  | 4 => r.drop
  | _ => 0

/-- A write of a ring's register: RBASE and LOGN stand while EN = 1, RTAIL does not pass RHEAD (R393). -/
def Ring.write (r : Ring) (n : Nat) (v : W64) : Ring :=
  match n with
  | 0 => if r.en then r else { r with base := v &&& maskBits 47 12 }
  | 1 =>
    { r with
      ovf := r.ovf && v.getLsbD 8, logn := if r.en then r.logn else v.extractLsb' 1 5, en := v.getLsbD 0 }
  | 3 => if (r.head - r.tail).toNat < (v.setWidth 32 - r.tail).toNat then r else { r with tail := v.setWidth 32 }
  | 4 => { r with drop := v }
  | _ => r

/-- TLBICTL as read (R389). -/
def Relia.tlbictl (r : Relia) : W64 :=
  BitVec.ofNat 64 (r.tlbiAsid.toNat * 2 ^ 16 + r.tlbiBusy.toNat * 2 ^ 8 + r.tlbiErr.toNat * 8 + r.tlbiFlush.toNat * 4 +
    r.tlbiScope.toNat)

/-- A fabric register as read (R442). -/
def State.fabricRead (s : State) (o : Nat) : W64 :=
  let f := s.fabric
  match o with
  | 0x400 => f.fmod.setWidth 64
  | 0x408 => f.period.setWidth 64
  | 0x410 => BitVec.ofNat 64 (f.oldest.toNat * 2 ^ 32 + f.current.toNat)
  | 0x418 => f.undobase
  | 0x420 => f.undosize.setWidth 64
  | 0x428 => BitVec.ofNat 64 (f.target.toNat * 2 ^ 32 + f.dead.toNat * 2 ^ 20 + f.state.toNat * 2 ^ 16)
  | _ => 0

/-- A write of a fabric register: UNDOBASE and UNDOSIZE stand while EN = 1 (R442). -/
def State.fabricWrite (s : State) (o : Nat) (v : W64) : State :=
  let undoing := s.fabric.undobase.getLsbD 0
  match o with
  | 0x400 => s.writeFmod v
  | 0x408 => s.modFabric fun f => { f with period := v.setWidth 32 }
  | 0x418 =>
    if undoing then s else s.modFabric fun f => { f with undobase := v &&& (maskBits 51 12 ||| 1) }
  | 0x420 => if undoing then s else s.modFabric fun f => { f with undosize := v.setWidth 32 }
  | _ => s

/-- FPSTAT and FPTHR of a port (R452). -/
def Port.read (p : Port) (thr : Bool) : W64 :=
  if thr then BitVec.ofNat 64 (p.degt.toNat * 2 ^ 8 + p.warnt.toNat) else p.fpstat

def Port.write (p : Port) (thr : Bool) (v : W64) : Port :=
  if thr then { p with degt := v.extractLsb' 8 8, warnt := v.extractLsb' 0 8 }
  else { p with warn := p.warn && v.getLsbD 3, degraded := p.degraded && v.getLsbD 2 }

def State.reliaRead (s : State) (o : Nat) : W64 :=
  let r := s.relia
  if o < 0x28 then r.beacon.read (o / 8)
  else if 0x100 ≤ o && o < 0x128 then r.fq.read ((o - 0x100) / 8)
  else if o == 0x200 then r.tlbiva
  else if o == 0x208 then r.tlbictl
  else if o == 0x210 then r.asidtab
  else if o == 0x218 then r.mcbase
  else if o == 0x300 then BitVec.ofNat 64 (r.crcFailed.toNat * 2 ^ 32 + r.crcRetried.toNat)
  else if 0x400 ≤ o && o ≤ 0x428 then s.fabricRead o
  else if 0x1000 ≤ o && o < 0x1240 then (s.port ((o - 0x1000) / 16)).read (o % 16 == 8)
  else if 0x8000 ≤ o && o < 0x10000 then s.route ((o - 0x8000) / 8)
  else 0

def State.reliaWrite (s : State) (o : Nat) (v : W64) : State :=
  if o < 0x28 then s.modRelia fun r => { r with beacon := r.beacon.write (o / 8) v }
  else if 0x100 ≤ o && o < 0x128 then s.modRelia fun r => { r with fq := r.fq.write ((o - 0x100) / 8) v }
  else if o == 0x130 then (if v.toNat / 2 ^ 33 != 0 then s else s.answerFault v)
  else if o == 0x200 then s.modRelia fun r => { r with tlbiva := v &&& maskBits 47 0 }
  else if o == 0x208 then s.writeTlbictl v
  else if o == 0x210 then s.writeAsidtab v
  else if o == 0x218 then s.modRelia fun r => { r with mcbase := v &&& tableMask }
  else if o == 0x300 then
    s.modRelia fun r => { r with crcFailed := v.extractLsb' 32 32, crcRetried := v.extractLsb' 0 32 }
  else if 0x400 ≤ o && o ≤ 0x428 then s.fabricWrite o v
  else if 0x1000 ≤ o && o < 0x1240 then s.modPort ((o - 0x1000) / 16) fun p => p.write (o % 16 == 8) v
  else if 0x8000 ≤ o && o < 0x10000 then s.writeRoute (BitVec.ofNat 12 ((o - 0x8000) / 8)) v
  else s

/-! ### Journal, power, security and host port blocks (R430, R432, R438 to R440) -/

def Journal.read (j : Journal) (o : Nat) : W64 :=
  match o with
  | 0x00 => j.base
  | 0x08 => BitVec.ofNat 64 (j.en.toNat * 2 ^ 8 + j.log)
  | 0x10 => j.head
  | _ => 0

/-- JBASE and JLOG stand while EN = 1 (R432). -/
def Journal.write (j : Journal) (o : Nat) (v : W64) : Journal :=
  match o with
  | 0x00 => if j.en then j else { j with base := v &&& maskBits 47 12 }
  | 0x08 => { j with en := v.getLsbD 8, jlog := if j.en then j.jlog else v.extractLsb' 0 5 }
  | _ => j

/-- A doubleword of a power record (R439). -/
def PowerRec.read (r : PowerRec) (input : Bool) (n : Nat) : W64 :=
  match n with
  | 0 => BitVec.ofNat 64 (r.vmv.toNat * 2 ^ 32 + r.sample.toNat)
  | 1 => BitVec.ofNat 64 ((if input then 0xFFFF else r.eff.toNat) * 2 ^ 48 + r.temp.toNat * 2 ^ 32 + r.ima.toNat)
  | 2 => BitVec.ofNat 64 (r.flags.toNat * 2 ^ 32 + r.pmw.toNat)
  | _ => r.time

def PowerBlock.read (p : PowerBlock) (o : Nat) : W64 :=
  if o < 0x800 then ((Tab.find p.records (o / 32)).getD {}).read (o / 32 == 0) (o % 32 / 8)
  else if o == 0x800 then BitVec.ofNat 64 p.cap
  else 0

def Security.read (x : Security) (o : Nat) : W64 :=
  if o < 0x20 then x.nonce.getD (o / 8) 0
  else if o == 0x20 then BitVec.ofNat 64 (x.err.toNat * 4 + x.busy.toNat * 2)
  else if o == 0x28 then x.buf
  else 0

/-- A write of ATTCTL: ERR is cleared by 1, GO starts a report, of the nonce and in the buffer that stand then, unless one is
being made (R438). -/
def Security.control (x : Security) (v : W64) : Security :=
  let go := v.getLsbD 0 && !x.busy
  { x with
    err := x.err && !v.getLsbD 2, busy := x.busy || v.getLsbD 0
    jobNonce := if go then x.nonce else x.jobNonce, jobBuf := if go then x.buf else x.jobBuf }

def Security.write (x : Security) (o : Nat) (v : W64) : Security :=
  if o < 0x20 then { x with nonce := x.nonce.setIfInBounds (o / 8) v }
  else if o == 0x20 then x.control v
  else if o == 0x28 then { x with buf := v &&& maskBits 47 12 }
  else x

def HostPort.read (h : HostPort) (o : Nat) : W64 := if o == 0 then h.wacbase else if o == 8 then h.wbbase else 0

def HostPort.write (h : HostPort) (o : Nat) (v : W64) : HostPort :=
  if o == 0 then { h with wacbase := v &&& maskBits 47 29 }
  else if o == 8 then { h with wbbase := v &&& maskBits 47 36 }
  else h

/-! ### Window A (R429) -/

/-- A register of window A as read: only the security block answers while a firmware stage has failed (R437); every other
offset reads as zero. -/
def State.regRead (s : State) (o : Nat) : W64 :=
  let at_ := o % 0x100000
  if s.security.bootFailed && o / 0x100000 != 4 then 0
  else
    match o / 0x100000 with
    | 0 => s.frontRegRead at_
    | 1 => s.reliaRead at_
    | 2 => s.journal.read at_
    | 3 => s.power.read at_
    | 4 => s.security.read at_
    | 5 => s.hostPort.read at_
    | _ => 0

/-- A write of an aligned doubleword of window A under the registers' access codes (R6). -/
def State.regWrite (s : State) (o : Nat) (v : W64) : State :=
  let at_ := o % 0x100000
  if s.security.bootFailed && o / 0x100000 != 4 then s
  else
    match o / 0x100000 with
    | 0 => s.frontRegWrite at_ v
    | 1 => s.reliaWrite at_ v
    | 2 => { s with journal := s.journal.write at_ v }
    | 4 => { s with security := s.security.write at_ v }
    | 5 => { s with hostPort := s.hostPort.write at_ v }
    | _ => s

/-- The doubleword that bytes make. -/
def wordOfBytes (bytes : List Byte) : W64 := BitVec.ofNat 64 (leNat bytes)

/-- REGISTER_WRITE (R6): one that is not an aligned doubleword has no effect (R429), and one waits for the host's earlier
writes (R431). -/
def execRegisterWrite (offset : Nat) (bytes : List Byte) (s : State) : Result :=
  if offset % 8 != 0 || bytes.length != 8 || s.hostWriting then .next s else .next (s.regWrite offset (wordOfBytes bytes))

/-! ### Host accesses (R429, R431) -/

def State.answerHost (s : State) (r : Option HostReply) : State := { s with hostPort := { s.hostPort with reply := r } }

/-- The device address of an aperture offset (R429); none outside the apertures. -/
def State.apertureAddr (s : State) (bulk : Bool) (o : Nat) : Option Nat :=
  if bulk then (if o < 2 ^ 36 then some ((s.hostPort.wbbase.toNat + o) % 2 ^ 48) else none)
  else if 0x20000000 ≤ o && o < 0x40000000 then some ((s.hostPort.wacbase.toNat + (o - 0x20000000)) % 2 ^ 48)
  else none

/-- Record 0x62: a host access failed translation or protection (R431). -/
def State.hostFault (s : State) (o : Nat) (write : Bool) : State :=
  s.beacon srcFront 0x62 1 [(16, o), (24, write.toNat)]

/-- A host read of `n` bytes through an aperture (R431). -/
def State.hostRead (s : State) (o va n : Nat) : State :=
  match s.agentRead 0 va n with
  | .done (bs, _) s => (s.crossing 4 0 va).2.answerHost (some (.data bs))
  | .sent s | .wait s => s.answerHost none
  | .refused | .fault _ _ => (s.hostFault o false).answerHost (some .abort)

/-- The host's write has ended: it is posted, and no other waits for it. -/
def State.hostDone (s : State) : State :=
  let s := s.endWrites .host
  { s with hostPort := { s.hostPort with reply := some .posted, pending := none } }

/-- A host write through an aperture, line by line, each part accepted before the next is made (R431): it is dropped from a part
on that fails translation or protection. -/
def State.hostWrite (s : State) (o : Nat) (op : Bool × Nat × List Byte) : Nat → Nat → List Byte → State
  | 0, _, _ => s.hostDone
  | fuel + 1, va, bytes =>
    if bytes.isEmpty then s.hostDone
    else
      let n := 128 - va % 128
      match s.orderedWrite 0 .host 0 va (bytes.take n) with
      | .done _ s => State.hostWrite s o op fuel ((va + n) % 2 ^ 48) (bytes.drop n)
      | .sent s | .wait s => { s with hostPort := { s.hostPort with reply := none, pending := some op } }
      | .fault _ _ => (s.hostFault o true).hostDone
      | .refused => (if (s.writeOf .host 0 va).isSome then s else s.hostFault o true).hostDone

/-- A host access to a register of window A (R429): one that is not an aligned doubleword is an unsupported request. -/
def State.hostRegister (s : State) (o : Nat) (op : HostOp) : State :=
  match op with
  | .read n =>
    if o % 8 != 0 || n != 8 then s.answerHost (some .unsupported)
    else s.answerHost (some (.data (leBytes 8 (s.regRead o).toNat)))
  | .write bytes =>
    if o % 8 != 0 || bytes.length != 8 then s.answerHost (some .unsupported)
    else (s.regWrite o (wordOfBytes bytes)).answerHost (some .posted)

/-- An offset of window A lies in a register block (R429). -/
def isRegister (o : Nat) : Bool := o < 0x600000

/-- HOST_APERTURE_ACCESS: an access of the host through a window (R429, R431). Accesses are made in the order in which they are
issued: while a write is being performed only that one goes on. Outside the blocks and the aperture of window A reads are
zero and writes are ignored. -/
def execHostApertureAccess (bulk : Bool) (offset : Nat) (op : HostOp) (s : State) : Result :=
  let mine : Bool := match op with
    | .read _ => false
    | .write bytes => s.hostPort.pending == some (bulk, offset, bytes)
  if s.hostWriting && !mine then .next s
  else
    match s.apertureAddr bulk offset with
    | none =>
      if bulk || 0x40000000 ≤ offset then .next s
      else if isRegister offset then .next (s.hostRegister offset op)
      else
        .next (s.answerHost (some (match op with
          | .read n => .data (List.replicate n 0)
          | .write _ => .posted)))
    | some va =>
      match op with
      | .read n =>
        if s.security.bootFailed then .next (s.answerHost (some (.data (List.replicate n 0)))) else .next (s.hostRead offset va n)
      | .write bytes =>
        if s.security.bootFailed then .next (s.answerHost (some .posted))
        else .next (s.hostWrite offset (bulk, offset, bytes) (bytes.length / 128 + 2) va bytes)

/-- HOST_LINK_LOSS: only host requests in flight are lost (R428). -/
def execHostLinkLoss (s : State) : Result :=
  let s := s.endWrites .host
  .next { s with hostPort := { s.hostPort with reply := none, pending := none } }

/-! ### Boot and attestation (R437, R438) -/

/-- A stage verifies (R437): the digest of its key is the fused one, its security version is not below the fused one, and its
signature, of 1,280 bytes, is valid. -/
def stageVerifies (x : StageImage) : Bool :=
  shake256 x.key == Config.fusedDigest && decide (Config.fusedVersion ≤ x.version) && x.signature.length == 1280 &&
    Config.signatureValid x.key x.image x.signature

/-- The stages that control passes to, and the first that fails, if one does (R437). -/
def bootStages : List StageImage → List StageImage × Option StageImage
  | [] => ([], none)
  | x :: rest => if stageVerifies x then (x :: (bootStages rest).1, (bootStages rest).2) else ([], some x)

/-- MODULE_RESET: the module's state after reset, memory as it was, and the verified boot, in which each stage is measured
before control passes to it (R437). A stage that fails leaves the queues disabled and only the security block exposed. -/
def execModuleReset (first : StageImage) (later : List StageImage) (s : State) : Result :=
  let (passed, failed) := bootStages (first :: later)
  let r := { State.reset with agenda := s.agenda, freeIdx := s.freeIdx, phys := s.phys, physPoison := s.physPoison }
  let r := { r with security := { r.security with measured := passed, bootFailed := failed.isSome } }
  match failed with
  | none => .next r
  | some f => .next (r.beacon srcFront 0x63 3 [(16, f.stage.toNat), (24, f.version.toNat)])

/-- ATTCTL_GO: a write of ATTCTL (R438). -/
def execAttctlGo (value : W64) (s : State) : Result :=
  if s.hostWriting then .next s else .next { s with security := s.security.control value }

/-- A measurement of a report: the SHAKE256 digest of the image (R437), its first 32 bytes. -/
def StageImage.bytes (x : StageImage) : List Byte :=
  leBytes 8 x.stage.toNat ++ leBytes 8 x.version.toNat ++ shake256 x.image

/-- The signed bytes of a report, 0x000 to 0x1AF (R438). -/
def Security.report (x : Security) : List Byte :=
  let body := leBytes 8 1 ++ x.jobNonce.toList.flatMap (fun w => leBytes 8 w.toNat) ++ leBytes 8 x.measured.length ++
    (x.measured.take 8).flatMap StageImage.bytes
  (body ++ List.replicate 432 0).take 432

/-- The signature of a report (R437, R438; log 9). -/
def signature (report : List Byte) : List Byte := (List.range 1280).map (Config.signatureByte report)

/-- How far the writing of a report has come: whole, refused, or waiting. -/
inductive Report where
  | whole (s : State)
  | refused (s : State)
  | wait (s : State)
  deriving DecidableEq, Repr

/-- Write bytes from an address on, at most 128 in each line; each part is accepted before the next is written. -/
def State.writeReport (s : State) : Nat → Nat → List Byte → Report
  | 0, _, _ => .whole s
  | fuel + 1, va, bytes =>
    if bytes.isEmpty then .whole s
    else
      match s.orderedWrite 0 .report 0 va (bytes.take 128) with
      | .done _ s => State.writeReport s fuel (va + 128) (bytes.drop 128)
      | .sent s | .wait s => .wait s
      | .refused | .fault _ _ => .refused s

/-- ATTESTATION_DONE: the report is written and BUSY falls; one that cannot be written sets ERR (R438). -/
def execAttestationDone (s : State) : Result :=
  if !s.security.busy then .next s
  else
    let x := s.security
    let base := x.jobBuf.toNat % 2 ^ 48
    let finish (s : State) (err : Bool) : State :=
      { s.endWrites .report with security := { s.security with busy := false, err := s.security.err || err } }
    match s.writeReport 4 base x.report with
    | .wait s => .next s
    | .refused s => .next (finish s true)
    | .whole s1 =>
      match s1.writeReport 10 (base + 0x200) (signature x.report) with
      | .wait s => .next s
      | .refused s => .next (finish s true)
      | .whole s => .next (finish s false)

/-! ### Telemetry and the module power cap (R439, R440) -/

/-- A record after a sample (R439): SAMPLE stays even between updates. -/
def PowerRec.update (r : PowerRec) (x : Sample) (time : Nat) : PowerRec :=
  { sample := r.sample + 2, vmv := x.vmv, ima := x.ima, temp := x.temp, eff := if x.point == 0 then 0xFFFF else x.eff
    pmw := x.pmw, flags := x.flags, time := BitVec.ofNat 64 time }

/-- A sample of a quadrant rail shows in QRAILn.VMV (R395). -/
def State.railSample (s : State) (x : Sample) : State :=
  let n := x.point.toNat
  if 15 ≤ n && n ≤ 30 then
    let d := s.die ((n - 15) / 4)
    let q := (n - 15) % 4
    s.setDie ((n - 15) / 4) { d with rails := d.rails.setIfInBounds q { d.rails.getD q {} with vmv := x.vmv.setWidth 16 } }
  else s

/-- TELEMETRY_UPDATE: the records of the sampled points are updated (R439). -/
def execTelemetryUpdate (samples : List Sample) (s : State) : Result :=
  .next (samples.foldl (fun s x =>
    let n := x.point.toNat
    let r := ((Tab.find s.power.records n).getD {}).update x s.timeNs
    { s with power := { s.power with records := Tab.put s.power.records n r } }.railSample x) s)

/-- The share of the cap that every die gets; IOBUDGET is 320 W (R440). -/
def dieShare (cap : Nat) : Nat := (cap - 320) / 4

def State.setShares (s : State) (f : Nat → Nat) : State :=
  [0, 1, 2, 3].foldl (fun s n => s.setDie n { s.die n with share := f (s.die n).share }) s

/-- MODULE_POWER_CAP: the node manager's command (R440). -/
def execModulePowerCap (watts : Nat) (s : State) : Result :=
  if watts < 1200 || 2400 < watts then .next (s.answerHost (some .invalidData))
  else
    let changed := watts != s.power.cap
    let s := { s.setShares (fun _ => dieShare watts) with power := { s.power with cap := watts } }
    .next (if changed then s.beacon srcFront 0x60 0 [(16, watts), (24, dieShare watts)] else s)

/-- CAP_ENFORCEMENT: input power above the cap lowers every share by the excess (R440). -/
def execCapEnforcement (inputWatts : Nat) (s : State) : Result :=
  if inputWatts ≤ s.power.cap then .next s else .next (s.setShares fun x => x - (inputWatts - s.power.cap))

end Sys2Proof.Machine
end

