-- ==== Sys2Proof/Machine/Power.lean ====
section
/-! DEFINITION. Rails, current and heat (spec/18 R395 to R400, R407): phase failures, the caps of the quadrants, the current
arbiter of a cluster, layer rails. -/

namespace Sys2Proof.Machine

/-- The cores of a quadrant of a die. -/
def quadrantCores (die quad : Nat) : List Nat := (List.range 16).map (64 * die + 16 * quad + ·)

def State.rail (s : State) (die quad : Nat) : Rail := (s.die die).rails.getD quad {}
def State.setRail (s : State) (die quad : Nat) (r : Rail) : State :=
  let d := s.die die
  s.setDie die { d with rails := d.rails.setIfInBounds quad r }

/-- A phase of a rail is lost (R395). -/
def Rail.losePhase (r : Rail) : Rail :=
  { r with phok := r.phok - 1, derated := true, ilim := min r.ilim (10 * (r.phok - 1)) }

/-- Every gang of a quadrant is pre-empted with REASON 0 (R397). -/
def State.clearQuadrant (s : State) (die quad : Nat) : State :=
  (s.gangs.filter fun e =>
    e.2.stands && e.2.cluster.toNat / 16 == die && quadrantOf e.2.cluster.toNat == quad).foldl
    (fun s e => s.requestPreempt e.1 .scheduler) s

/-- PHASE_FAILURE: PHOK and ILIM fall, Beacon notes it, and the rules of R397 on PHOK apply (R395, R397). -/
def execPhaseFailure (die : BitVec 2) (quadrant : BitVec 2) (s : State) : Result :=
  let r := s.rail die.toNat quadrant.toNat
  if r.phok == 0 then .next s
  else
    let r := r.losePhase
    let s := (s.setRail die.toNat quadrant.toNat r).beacon (srcDie die.toNat) 0x33 1
      [(16, quadrant.toNat), (24, r.phok), (32, r.ilim)]
    let s := (quadrantCores die.toNat quadrant.toNat).foldl State.holdStep s
    .next (if r.phok < 8 then s.clearQuadrant die.toNat quadrant.toNat else s)

/-! ### The heat cap (R378, R397, R399) -/

/-- The least QCAP (R397). -/
def capFloor : Nat := 176

/-- The limit that the controller keeps: PLIM, or half of it during a thermal trip (R378). -/
def DieRegs.heatLimit (d : DieRegs) : Nat := if d.tripped then d.plim / 2 else d.plim

/-- A QCAP lowered by a free value, never below 176 A (R397, R399; log 24). -/
def lowerCap (n quad old power limit : Nat) : Nat :=
  max capFloor (min (old - 1) (Config.capStep n quad old power limit))

/-- Set the caps of a die from its power; none falls below 176 A (R397). -/
def DieRegs.setCaps (d : DieRegs) (n : Nat) : DieRegs :=
  let above := d.heatLimit < d.pwr
  { d with rails := d.rails.mapIdx fun i r =>
      { r with qcap := some (if above then lowerCap n i r.cap d.pwr d.heatLimit else max capFloor r.cap) } }

/-- Raise the clock step of the powered cores of a die, up to 8 (R399). -/
def State.raiseSteps (s : State) (die : Nat) : State :=
  (List.range 64).foldl (fun s i =>
    let core := 64 * die + i
    if (s.cluster (core / 4)).powered && (s.core core).step < 8 then
      s.modCore core fun c => { c with step := c.step + 1 }
    else s) s

/-- QCAP_UPDATE: the die power controller sets each QCAP (R397, R399). -/
def execQcapUpdate (die : BitVec 2) (watts : BitVec 16) (floor : Bool) (s : State) : Result :=
  let d := { s.die die.toNat with pwr := watts.toNat }
  let above := d.heatLimit < d.pwr
  let starts := above && !d.capping
  let d := { d.setCaps s.freeIdx with
    capped := d.capped || d.plim < d.pwr, capping := above || (d.capping && d.plim < d.pwr) }
  let s := s.setDie die.toNat d
  let s := if starts then
      s.beacon (srcDie die.toNat) 0x35 0 [(16, d.pwr), (24, d.plim), (32, d.pwrWord.toNat / 16 % 16)]
    else s
  .next (if above && floor then s.raiseSteps die.toNat else s)

/-- QCAP_RISE: while PWR is at most 0.9 PLIM each QCAP rises by 5 % (R399). -/
def execQcapRise (die : BitVec 2) (s : State) : Result :=
  let d := s.die die.toNat
  if 10 * d.pwr ≤ 9 * d.heatLimit then
    .next (s.setDie die.toNat { d with rails := d.rails.map fun r => { r with qcap := r.qcap.map fun q => q + q / 20 } })
  else .next s

/-! ### The current arbiter of a cluster (R285, R396 to R398) -/

/-- The baseline of a quadrant's powered cores in A (R396). -/
def State.baseline (s : State) (die quad : Nat) : Nat :=
  ((quadrantCores die quad).map fun c =>
    if (s.cluster (c / 4)).powered then (if (s.core c).step < 8 then 8 else 4) else 0).sum

/-- CB: the current budget of a cluster in A (R397). -/
def State.currentBudget (s : State) (cl : Nat) : Nat :=
  let r := s.rail (cl / 16) (quadrantOf cl)
  (min r.ilim r.cap - s.baseline (cl / 16) (quadrantOf cl)) / 4

/-- What a reservation draws in A (R396). -/
def workAmps : CurrentWork → Nat
  | .pass _ => 12
  | .copy => 4
  | .vector _ => 2

/-- What the reservations of a cluster draw. -/
def State.heldCurrent (s : State) (cl : Nat) : Nat := ((s.cluster cl).currents.map workAmps).sum

/-- The table entry of a pass, with the older entries. -/
def findPass (op : Nat) : List MEntry → List MEntry → Option (List MEntry × MEntry)
  | _, [] => none
  | older, e :: rest =>
    if opName e.team e.op == op then some (older, e) else findPass op (older ++ [e]) rest

/-- A pass wants its reservation: it is otherwise eligible (R284, R285). -/
def State.passWants (s : State) (cl op : Nat) : Bool :=
  match findPass op [] (s.cluster cl).table with
  | none => false
  | some (older, e) =>
    e.kind.isPass && !e.current && s.eligible (s.cluster cl).table older e &&
      (match starvingIn older with
        | none => true
        | some o => !o.kind.isPass || o.current)

/-- Work asks for current: a pass as above, a copy while one is queued, a vector burst at any time (R396). -/
def State.wantsCurrent (s : State) (cl : Nat) : CurrentWork → Bool
  | .pass op => s.passWants cl op
  | .copy => (s.cluster cl).copies.any fun c => !c.acted
  | .vector n => (s.cluster cl).powered && !((s.runningOn (4 * cl + n.toNat)).isEmpty)

/-- CURRENT_GRANT: a request that fits the budget is granted; one that does not waits (R396, R398). -/
def execCurrentGrant (cluster : BitVec 6) (work : CurrentWork) (s : State) : Result :=
  let cl := cluster.toNat
  let r := s.cluster cl
  if r.currents.contains work || !s.wantsCurrent cl work ||
      s.currentBudget cl < s.heldCurrent cl + workAmps work then .next s
  else
    let mark (e : MEntry) : MEntry := if work == .pass (opName e.team e.op) then { e with current := true } else e
    .next (s.setCluster cl { r with currents := r.currents ++ [work], table := r.table.map mark })

/-- BURST_EXPIRY: the microsecond of a burst is over; it is renewed while its work runs and the budget holds (R396, R398). A
pass holds its reservation to the end of its last replay. -/
def execBurstExpiry (cluster : BitVec 6) (work : CurrentWork) (renew : Bool) (s : State) : Result :=
  let cl := cluster.toNat
  let r := s.cluster cl
  let keep := renew && s.wantsCurrent cl work && decide (s.heldCurrent cl ≤ s.currentBudget cl)
  match work with
  | .pass _ => .next s
  | w => if keep then .next s else .next (s.setCluster cl { r with currents := r.currents.filter (· != w) })

/-- LAYER_RAIL_FAULT: a layer of a die goes offline (R400). -/
def execLayerRailFault (die : BitVec 2) (layer : BitVec 3) (millivolts : BitVec 32) (s : State) : Result :=
  let d := s.die die.toNat
  .next ((s.setDie die.toNat { d with offline := insertNat layer.toNat d.offline }).beacon (srcDie die.toNat) 0x34 3
    [(16, layer.toNat), (24, millivolts.toNat)])

end Sys2Proof.Machine
end

