-- ==== Sys2Proof/Machine/Thermal.lean ====
section
/-! DEFINITION. The vaults (spec/16 R351, R354, R355, spec/18 R378): temperature reports, refresh steps, the thermal trip,
TALLOW, the refresh charge of the gangs. -/

namespace Sys2Proof.Machine

/-- The greatest of a list of temperatures. -/
def hottest : List Int → Int
  | [] => 0
  | [t] => t
  | t :: ts => max t (hottest ts)

/-- The temperature above which a step is entered, in quarter-degrees (R351). -/
def stepThreshold (n : Nat) : Int := if n ≤ 1 then 340 else if n == 2 then 380 else 420

/-- The step falls while T lies 2 °C below the threshold that it crossed (R351). -/
def stepFall (t : Int) : Nat → Nat
  | 0 => 0
  | n + 1 => if t ≤ stepThreshold (n + 1) - 8 then stepFall t n else n + 1

/-- The step of a vault after a report of T (R351). -/
def nextStep (old : Nat) (t : Int) : Nat := if old ≤ stepAt t then stepAt t else stepFall t old

/-- A number as a Beacon payload word. -/
def intWord (t : Int) : Nat := (BitVec.ofInt 64 t).toNat

/-- A report of a vault is recorded; a change of its step is noted by Beacon (R351, R407). -/
def State.reportVault (s : State) (die : BitVec 2) (vault : BitVec 6) (layers : List Int) : State :=
  let d := s.die die.toNat
  let old := ((Tab.find d.vaults vault.toNat).getD {}).step
  let t := hottest layers
  let new := nextStep old t
  let s := s.setDie die.toNat
    { d with vaults := Tab.put d.vaults vault.toNat { temp := t, step := new, layers := layers } }
  if new == old then s
  else s.beacon (srcVault die.toNat vault.toNat) 0x36 0 [(16, old), (24, new), (32, intWord t)]

/-- Every layer temperature known of a die. -/
def DieRegs.layerTemps (d : DieRegs) : List Int := d.vaults.flatMap (·.2.layers)

/-- The thermal trip begins above 115 °C and ends when every layer is at 105 °C or less (R378). -/
def State.judgeTrip (s : State) (die : Nat) : State :=
  let d := s.die die
  let top := hottest d.layerTemps
  if !d.tripped && d.layerTemps.any (460 < ·) then
    (s.setDie die { d with tripped := true }).beacon (srcDie die) 0x37 2 [(16, 0), (24, intWord top)]
  else if d.tripped && d.layerTemps.all (· ≤ 420) then
    (s.setDie die { d with tripped := false }).beacon (srcDie die) 0x37 2 [(16, 1), (24, intWord top)]
  else s

/-- VAULT_REPORT: a vault reports the temperatures of its layers (R351, R378). -/
def execVaultReport (die : BitVec 2) (vault : BitVec 6) (layers : List Int) (s : State) : Result :=
  if layers.isEmpty then .next s else .next ((s.reportVault die vault layers).judgeTrip die.toNat)

/-- The threshold of TALLOW: the least of 85, 95 and 105 °C not below T, or 105 °C (R355). -/
def allowThreshold (t : Int) : Int := if t ≤ 340 then 340 else if t ≤ 380 then 380 else 420

/-- TALLOW of a core under a vault (R355). -/
def allowWord (v : Vault) : W64 :=
  BitVec.ofNat 64 (v.step * 2 ^ 16 + (BitVec.ofInt 16 (allowThreshold v.temp - v.temp)).toNat)

/-- The vault above a core, once it has reported. -/
def State.vaultAbove (s : State) (core : Nat) : Option Vault := Tab.find (s.die (core / 64)).vaults (core % 64)

/-- TALLOW_TICK: TALLOW of every core is taken from the latest report of the vault above it (R355). -/
def execTallowTick (s : State) : Result :=
  .next ((List.range 256).foldl (fun s c =>
    match s.vaultAbove c with
    | none => s
    | some v => s.modCore c fun r => { r with tallow := allowWord v }) s)

/-- The residents of a core, those of a gang alone or all. -/
def State.residents (s : State) (core : Nat) (gang : Option Nat) : Nat :=
  (s.teams.filter fun e => e.2.core.toNat == core && e.2.stat != .saved && e.2.stat != .ended &&
    (gang.isNone || gang == some e.2.gangKey)).length

/-- The charge of a gang for the cores it occupies, in 1/720720 byte (R354): 256 GB/s for 10 µs are 2,560,000 bytes. -/
def State.chargeOf (s : State) (key : Nat) (g : Gang) : Nat :=
  ((g.coreOf.foldl (fun l e => insertNat e.2 l) []).map fun n =>
    let core := 4 * g.cluster.toNat + n
    let all := s.residents core none
    if all == 0 then 0
    else
      25600 * stepLoss ((s.vaultAbove core).map (·.step) |>.getD 0) * 720720 * s.residents core (some key) / all).sum

/-- REFRESH_CHARGE: every resident gang is charged for the refresh above its cores (R354). -/
def execRefreshCharge (s : State) : Result :=
  .next (s.gangs.foldl (fun s e =>
    if e.2.stat == .resident then s.modGrid e.2.seq fun q => { q with charge := q.charge + s.chargeOf e.1 e.2 } else s) s)

end Sys2Proof.Machine
end

