-- ==== Sys2Proof/Machine/Vector.lean ====
section
/-! DEFINITION. Vector arithmetic, logic, compares, functions, conversion and quantisation (spec/05). -/

namespace Sys2Proof.Machine

/-! ### Arithmetic (R136, R137) -/

/-- An arithmetic element function: exact on integers and fitted (R130), RoundTo on floats (R136). -/
def arith (x : Ctx) (int : Int → Int → Int → Int)
    (flt : FFmt → RMode → Bool → Nat → Nat → Nat → Nat × Flags) : Nat → Nat → Nat → Nat × Flags :=
  match x.et.fmt with
  | some f => flt f x.rm x.ftz
  | none => fun a b d => (x.et.fit x.sat (int (x.et.int a) (x.et.int b) (x.et.int d)), 0)

def addElem (x : Ctx) : Nat → Nat → Nat → Nat × Flags :=
  arith x (fun a b _ => a + b) fun f rm z a b _ => f.fadd rm z a b
def subElem (x : Ctx) : Nat → Nat → Nat → Nat × Flags :=
  arith x (fun a b _ => a - b) fun f rm z a b _ => f.fsub rm z a b
def mulElem (x : Ctx) : Nat → Nat → Nat → Nat × Flags :=
  arith x (fun a b _ => a * b) fun f rm z a b _ => f.fmul rm z a b
def fmaElem (x : Ctx) : Nat → Nat → Nat → Nat × Flags :=
  arith x (fun a b d => d + a * b) fun f rm z a b d => f.ffma rm z a b d
def fmsElem (x : Ctx) : Nat → Nat → Nat → Nat × Flags :=
  arith x (fun a b d => d - a * b) fun f rm z a b d => f.ffms rm z a b d

/-- VMULH on an element: floor(a × b / 2^w) (R136). -/
def mulhElem (x : Ctx) (a b _d : Nat) : Nat × Flags :=
  (x.et.wrap (x.et.int a * x.et.int b / 2 ^ x.et.width), 0)

/-- VMIN and VMAX on an element (R137). -/
def minMaxElem (isMax : Bool) (x : Ctx) (a b _d : Nat) : Nat × Flags :=
  match x.et.fmt with
  | some f => f.fminmax isMax x.ftz a b
  | none => (if (x.et.int a < x.et.int b) != isMax then a else b, 0)

/-- The arithmetic V3 instructions: RM is consulted under float types. -/
def vecArith (i : Instr) (f : V3) (s : State) (readD : Bool) (el : Ctx → Nat → Nat → Nat → Nat × Flags) : Result :=
  vec3 i f s { rm := roundsFloat } readD fun x _ a b d => laneFn x.et (el x) a b d

/-- The V3 instructions that consult ET alone. -/
def vecBits (i : Instr) (f : V3) (s : State) (el : Ctx → Nat → Nat → Nat → Nat × Flags) : Result :=
  vec3 i f s {} false fun x _ a b d => laneFn x.et (el x) a b d

def execVadd (f : V3) (s : State) : Result := vecArith (.vadd f) f s false addElem
def execVsub (f : V3) (s : State) : Result := vecArith (.vsub f) f s false subElem
def execVmul (f : V3) (s : State) : Result := vecArith (.vmul f) f s false mulElem
def execVmulh (f : V3) (s : State) : Result :=
  vec3 (.vmulh f) f s { typed := Team.isFloat } false fun x _ a b d => laneFn x.et (mulhElem x) a b d
def execVfma (f : V3) (s : State) : Result := vecArith (.vfma f) f s true fmaElem
def execVfms (f : V3) (s : State) : Result := vecArith (.vfms f) f s true fmsElem
def execVmin (f : V3) (s : State) : Result := vecBits (.vmin f) f s (minMaxElem false)
def execVmax (f : V3) (s : State) : Result := vecBits (.vmax f) f s (minMaxElem true)

/-! ### Bits and shifts (R138) -/

/-- A bitwise element function. -/
def bitElem (op : Nat → Nat → Nat) (_x : Ctx) (a b _d : Nat) : Nat × Flags := (op a b, 0)

/-- A shift of an element by b mod w (R138). -/
def shiftElem (op : ElemType → Nat → Nat → Nat) (x : Ctx) (a b _d : Nat) : Nat × Flags :=
  (op x.et a (b % x.et.width) % 2 ^ x.et.width, 0)

/-- A right shift with copies of the top bit. -/
def sarBits (e : ElemType) (a n : Nat) : Nat :=
  let sgn : Int := if 2 ^ (e.width - 1) ≤ a then (a : Int) - 2 ^ e.width else a
  e.wrap (sgn / 2 ^ n)

def execVand (f : V3) (s : State) : Result := vecBits (.vand f) f s (bitElem (· &&& ·))
def execVor (f : V3) (s : State) : Result := vecBits (.vor f) f s (bitElem (· ||| ·))
def execVxor (f : V3) (s : State) : Result := vecBits (.vxor f) f s (bitElem (· ^^^ ·))
def execVandn (f : V3) (s : State) : Result := vecBits (.vandn f) f s (bitElem fun a b => a ^^^ (a &&& b))
def execVshl (f : V3) (s : State) : Result := vecBits (.vshl f) f s (shiftElem fun _ a n => a <<< n)
def execVshr (f : V3) (s : State) : Result := vecBits (.vshr f) f s (shiftElem fun _ a n => a >>> n)
def execVsar (f : V3) (s : State) : Result := vecBits (.vsar f) f s (shiftElem sarBits)
def execVrot (f : V3) (s : State) : Result :=
  vecBits (.vrot f) f s (shiftElem fun e a n => a <<< n ||| a >>> (e.width - n))

/-! ### Compare, select, Flicker (R140 to R143) -/

/-- Replace the bits of mask word `w` that `eff` selects in the block at `n` (R140). -/
def Team.setMaskBits (t : Team) (n w : Nat) (eff bits : W32) : Team :=
  let r := n + w / 2
  let m : W64 := eff.setWidth 64 <<< (32 * (w % 2))
  let v : W64 := bits.setWidth 64 <<< (32 * (w % 2))
  t.setS r ((t.sreg r &&& ~~~m) ||| (v &&& m))

/-- A mask word from a test of each lane's bit. -/
def maskOf (p : Nat → Bool) : W32 := BitVec.ofNat 32 ((List.range 32).foldl (fun n b => n + if p b then 2 ^ b else 0) 0)

/-- The passes of VCMP: each writes the mask bits of its active lanes (R140). -/
def cmpLanes (f : CS) (t : Team) : Lanes :=
  let wide := t.ctx.et.wide
  { reads := pairOf wide f.a.toNat ++ pairOf wide f.b.toNat
    body := fun u w eff =>
      let c (b : Nat) : Bool × Flags := laneCond t.ctx f.c (u.elem wide f.a.toNat w b) (u.elem wide f.b.toNat w b)
      (u.setMaskBits f.d.toNat w eff (maskOf fun b => (c b).1), (activeBits eff).map fun b => (b, (c b).2)) }

def execVcmp (f : CS) (s : State) : Result :=
  issueLanes (.vcmp f) s (fun t => t.blockFields f.d.toNat)
    { fields := [f.a.toNat, f.b.toNat], block := fun t => t.blockBeyond f.d.toNat } (cmpLanes f)

/-- VSEL (R142). A resumed one reads its selection block, like the guard block, as it stands at ERET: R198 names the guard
block alone (DEDUCED, log 31). -/
def execVsel (f : V3) (s : State) : Result :=
  issueLanes (.vsel f) s (fun t => t.blockFields (t.gb + t.blockRegs))
    { fields := [f.d.toNat, f.a.toNat, f.b.toNat], block := fun t => 64 < t.gb + 2 * t.blockRegs } fun t =>
    let wide := t.ctx.et.wide
    laneOp wide wide (some f.a.toNat) (some f.b.toNat) none f.d.toNat
      (lastRead f.sv f.l wide f.a.toNat ++ lastRead f.sv f.m wide f.b.toNat) fun n a b _ =>
      (if (t.maskWord (t.gb + t.blockRegs) (n / 32)).getLsbD (n % 32) then a else b, 0)

/-- Flicker as an F32 value (R143). -/
def flickerF32 (i key : Nat) : Nat :=
  let v := flicker32 i (BitVec.ofNat 32 key)
  (fmtF32.round .rne (.fin (v < 0) v.natAbs (-5))).1

def execVflk (f : V3) (s : State) : Result :=
  vec3 (.vflk f) f s { et := false } false fun _ _ a b _ => (flickerF32 a b, 0)

/-! ### The VFN group (R144, R145) -/

/-- A VFN instruction on elements. -/
def vecFn (i : Instr) (f : FS) (s : State) (c : Checks) (el : Ctx → Nat → Nat × Flags) : Result :=
  vec1 i f.sv f.d f.a f.l s c fun x _ a => laneFn x.et (fun a _ _ => el x a) a 0 0

/-- Invert or clear the sign of a float element. -/
def topBit (x : Ctx) : Nat := 2 ^ (x.et.width - 1)

def negElem (x : Ctx) (a : Nat) : Nat × Flags :=
  if x.et.fmt.isSome then (a ^^^ topBit x, 0) else (x.et.fit x.sat (-x.et.int a), 0)
def absElem (x : Ctx) (a : Nat) : Nat × Flags :=
  if x.et.fmt.isSome then (a % topBit x, 0)
  else if x.et.signed then (x.et.fit x.sat (x.et.int a).natAbs, 0) else (a, 0)
/-- VFLR, VCEIL, VTRNC and VRND: integers as they are, floats to an integral value (R144). -/
def intElem (rm : Ctx → RMode) (x : Ctx) (a : Nat) : Nat × Flags :=
  match x.et.fmt with
  | some f => f.fint (rm x) x.ftz a
  | none => (a, 0)
/-- VCLASS on an element (R145). -/
def classElem (x : Ctx) (a : Nat) : Nat × Flags :=
  match x.et.fmt with
  | some f => (f.fclass a, 0)
  | none => (0, 0)

def execVmov (f : FS) (s : State) : Result := vecFn (.vmov f) f s {} fun _ a => (a, 0)
def execVneg (f : FS) (s : State) : Result := vecFn (.vneg f) f s {} negElem
def execVabs (f : FS) (s : State) : Result := vecFn (.vabs f) f s {} absElem
def execVnot (f : FS) (s : State) : Result := vecFn (.vnot f) f s {} fun x a => (2 ^ x.et.width - 1 - a, 0)
def execVpopc (f : FS) (s : State) : Result := vecFn (.vpopc f) f s {} fun x a => (popCount x.et.width a, 0)
def execVclz (f : FS) (s : State) : Result := vecFn (.vclz f) f s {} fun x a => (leadZeros x.et.width a, 0)
def execVflr (f : FS) (s : State) : Result := vecFn (.vflr f) f s {} (intElem fun _ => .rdn)
def execVceil (f : FS) (s : State) : Result := vecFn (.vceil f) f s {} (intElem fun _ => .rup)
def execVtrnc (f : FS) (s : State) : Result := vecFn (.vtrnc f) f s {} (intElem fun _ => .rtz)
def execVrnd (f : FS) (s : State) : Result := vecFn (.vrnd f) f s { rm := roundsFloat } (intElem (·.rm))
def execVlane (f : FS) (s : State) : Result := vec0 (.vlane f) f.d [] s { et := false } fun _ n => n
def execVbrev (f : FS) (s : State) : Result := vecFn (.vbrev f) f s {} fun x a => (revBits x.et.width a, 0)
def execVclass (f : FS) (s : State) : Result := vecFn (.vclass f) f s { typed := fun t => !t.isFloat } classElem

/-! ### Long-latency functions (R80, R146) -/

/-- A VLONG instruction: float types only, RM consulted. -/
def vecLong (i : Instr) (f : FL) (s : State) (readD : Bool) (el : FFmt → RMode → Bool → Nat → Nat → Nat × Flags) :
    Result :=
  issueLanes i s (fun _ => [])
    { rm := roundsFloat, fields := [f.d.toNat, f.a.toNat], typed := fun t => !t.isFloat } fun t =>
    laneOp false false (some f.a.toNat) none (if readD then some f.d.toNat else none) f.d.toNat
      (lastRead f.sv f.l false f.a.toNat) fun _ a _ d =>
      laneFn t.ctx.et (fun a _ d => el (t.ctx.et.fmt.getD fmtF32) t.ctx.rm t.ctx.ftz d a) a 0 d

/-- A function of one operand. -/
def longElem (fn : LongFn) (f : FFmt) (rm : RMode) (ftz : Bool) (_d a : Nat) : Nat × Flags := f.flong rm ftz fn a

def execVdiv (f : FL) (s : State) : Result := vecLong (.vdiv f) f s true fun g rm z d a => g.fdiv rm z d a
def execVrcp (f : FL) (s : State) : Result := vecLong (.vrcp f) f s false (longElem .rcp)
def execVsqrt (f : FL) (s : State) : Result := vecLong (.vsqrt f) f s false (longElem .sqrt)
def execVrsq (f : FL) (s : State) : Result := vecLong (.vrsq f) f s false (longElem .rsq)
def execVexp2 (f : FL) (s : State) : Result := vecLong (.vexp2 f) f s false (longElem .exp2)
def execVlog2 (f : FL) (s : State) : Result := vecLong (.vlog2 f) f s false (longElem .log2)
def execVsin (f : FL) (s : State) : Result := vecLong (.vsin f) f s false (longElem .sin)
def execVcos (f : FL) (s : State) : Result := vecLong (.vcos f) f s false (longElem .cos)
def execVtanh (f : FL) (s : State) : Result := vecLong (.vtanh f) f s false (longElem .tanh)
def execVsigm (f : FL) (s : State) : Result := vecLong (.vsigm f) f s false (longElem .sigm)
def execVexp (f : FL) (s : State) : Result := vecLong (.vexp f) f s false (longElem .exp)
def execVlog (f : FL) (s : State) : Result := vecLong (.vlog f) f s false (longElem .log)

/-! ### Conversion (R147, R148) -/

/-- A value rounded to a float format, saturating a finite value that overflows (R147). -/
def cvtToFloat (g : FFmt) (rm : RMode) (ftz sat : Bool) (v : FVal) : Nat × Flags :=
  let (r, fl) := g.round rm v
  let r := match v with
    | .fin neg _ _ => if sat && r % 2 ^ (g.width - 1) == g.infBits false then g.maxBits neg else r
    | _ => r
  g.flushOut ftz (r, v.sig ||| fl)

/-- A float value to an integer type (R147). -/
def cvtToInt (e : ElemType) (rm : RMode) : FVal → Nat × Flags
  | .nan _ => (0, flagNV)
  | .inf neg => (e.wrap (if neg then e.lo else e.hi), flagNV)
  | .fin neg m ex =>
    let (n, inexact) := roundInt rm neg m ex
    let v := signedMant neg n
    if v < e.lo || e.hi < v then (e.clamp v, flagNV) else (e.wrap v, if inexact then flagNX else 0)

/-- VCVT of one element. -/
def cvtElem (src dst : ElemType) (rm : RMode) (ftz sat : Bool) (a : Nat) : Nat × Flags :=
  match src.fmt, dst.fmt with
  | some f, some g => cvtToFloat g rm ftz sat (f.read ftz a)
  | some f, none => cvtToInt dst rm (f.read ftz a)
  | none, some g =>
    let v := src.int a
    cvtToFloat g rm ftz sat (.fin (v < 0) v.natAbs 0)
  | none, none => (if sat then dst.clamp (src.int a) else dst.wrap (src.int a), 0)

/-- VCVT of a lane: slots as R148 maps them. -/
def cvtLane (src dst : ElemType) (rm : RMode) (ftz sat : Bool) (a : Nat) : Nat × Flags :=
  if src.two && dst.two then laneFn src (fun a _ _ => cvtElem src dst rm ftz sat a) a 0 0
  else cvtElem src dst rm ftz sat (a % 2 ^ src.width)

def execVcvt (f : CVT) (s : State) : Result :=
  let dst := (ElemType.ofCode f.t.toNat).getD .i32
  issueLanes (.vcvt f) s (fun _ => [])
    { rm := fun t => t.isFloat || dst.fmt.isSome, fields := [f.d.toNat, f.a.toNat]
      wide := fun t => t.ctx.et.wide || dst.wide } fun t =>
    laneOp t.ctx.et.wide dst.wide (some f.a.toNat) none none f.d.toNat
      (lastRead f.sv f.l t.ctx.et.wide f.a.toNat) fun _ a _ _ => cvtLane t.ctx.et dst t.ctx.rm t.ctx.ftz f.s a

/-! ### Immediate forms (R139) -/

/-- The element value of VADDI's immediate under a float type. -/
def immFloat (g : FFmt) (i : BitVec 9) : Nat := (g.round .rne (.fin (i.toInt < 0) i.toInt.natAbs 0)).1

/-- VADDI on an element (R139). -/
def addImmElem (i : BitVec 9) (x : Ctx) (a : Nat) : Nat × Flags :=
  match x.et.fmt with
  | some g => g.fadd x.rm x.ftz a (immFloat g i)
  | none => (x.et.fit x.sat (x.et.int a + i.toInt), 0)

def execVaddi (f : VI) (s : State) : Result :=
  vec1 (.vaddi f) f.sv f.d f.a f.l s { rm := roundsFloat } fun x _ a => laneFn x.et (fun a _ _ => addImmElem f.i x a) a 0 0

def execVmovi (f : LI) (s : State) : Result := vec0 (.vmovi f) f.d [] s {} fun _ _ => (f.i.signExtend 64).toNat

/-! ### Broadcast, extraction and lane exchange (R149 to R151) -/

def execVmovs (f : V3) (s : State) : Result :=
  vec0 (.vmovs f) f.d [f.a.toNat] s {} fun t _ => (t.src f.a).toNat

/-- The pass that VGETS issues: the word of lane b mod L, if the lane is active (R150). -/
def getsWords (f : V3) (t : Team) : List (Nat × W32) :=
  let n := (t.src f.b).toNat % t.lanes
  t.issued.filter fun e => e.1 == n / 32 && e.2.getLsbD (n % 32)

/-- The pass of VGETS (R150). -/
def getsLanes (f : V3) (t : Team) : Lanes :=
  let wide := t.ctx.et.wide
  let n := (t.src f.b).toNat % t.lanes
  { reads := pairOf wide f.a.toNat
    gone := lastRead f.sv f.l wide f.a.toNat
    body := fun u w _ => (u.setS f.d.toNat (extend t.ctx.et (u.elem wide f.a.toNat w (n % 32))), []) }

def execVgets (f : V3) (s : State) : Result :=
  issueLanes (.vgets f) s (fun _ => [f.d.toNat, f.b.toNat]) { fields := [f.a.toNat] } (getsLanes f) (getsWords f)

/-- A row in error that the instruction has not overwritten. -/
def Team.badBefore (t : Team) (r w : Nat) : Bool := !(t.prog.old.any fun e => e.1 == rowKey r w) && t.rowBad r w

/-- The passes of a lane exchange (R151): lane i takes the element of lane `j u w b` of A as it stood before the
instruction, also where an earlier pass has overwritten it; A's rows of the issued words are released after every pass has
read, also where the flag stands on B and names the same register (R35; DEDUCED, log 31). VSHFL's B, which says what is read of A,
is looked at before A where both are unmapped (DESIGN CHOICE, log 89). -/
def exchangeLanes (f : V3) (shfl : Bool) (j : Team → Team → Nat → Nat → Nat) (t : Team) : Lanes :=
  let wide := t.ctx.et.wide
  let dst := pairOf wide f.d.toNat
  let flagged := if shfl then lastRead f.sv f.m false f.b.toNat else []
  let shared := flagged.filter (pairOf wide f.a.toNat).contains
  let late := (lastRead f.sv f.l wide f.a.toNat ++ shared).filter fun r => !dst.contains r
  { reads := if shfl then [f.b.toNat] else []
    dst := dst
    gone := flagged.filter fun r => !shared.contains r
    extra := fun u w eff =>
      (activeBits eff).findSome? fun b =>
        let w' := j t u w b / 32
        ((pairOf wide f.a.toNat).find? fun r => (u.rowBefore r w').isNone).elim
          (((pairOf wide f.a.toNat).find? fun r => u.badBefore r w').map fun r => u.rowPoison r w)
          fun r => some (u.unmapped r w)
    body := fun u w eff =>
      (u.putElems wide f.d.toNat w eff fun b => u.elemBefore wide f.a.toNat (j t u w b / 32) (j t u w b % 32), [])
    late := late
    finish := fun u =>
      late.foldl (fun u r => (u.prog.words.filter (·.1 < t.words)).foldl (fun u e => u.dropRow e.2 e.1 r) u) u }

/-- The source lane of VSHFL and of VBFLY (R151). -/
def shflLane (f : V3) (t u : Team) (w b : Nat) : Nat := u.elem false f.b.toNat w b % t.lanes
def bflyLane (f : V3) (t _u : Team) (w b : Nat) : Nat := (32 * w + b) ^^^ ((t.src f.b).toNat % t.lanes)

def execVshfl (f : V3) (s : State) : Result :=
  issueLanes (.vshfl f) s (fun _ => []) { fields := [f.d.toNat, f.a.toNat, f.b.toNat] }
    (exchangeLanes f true (shflLane f))
def execVbfly (f : V3) (s : State) : Result :=
  issueLanes (.vbfly f) s (fun _ => [f.b.toNat]) { fields := [f.d.toNat, f.a.toNat] }
    (exchangeLanes f false (bflyLane f))

/-! ### Reduction (R152) -/

/-- A node of the reduction tree: its value and the lowest active lane beneath it, or Absent. -/
abbrev RNode := Option (Nat × Nat)

/-- Comb, with the flags of the step charged to lane `charge y` (R133). -/
def comb (op : Nat → Nat → Nat × Flags) (charge : Nat → Nat → Nat) (x y : RNode) : RNode × List (Nat × Flags) :=
  match x, y with
  | none, y => (y, [])
  | x, none => (x, [])
  | some (a, la), some (b, lb) =>
    let (v, fl) := op a b
    (some (v, la), [(charge la lb, fl)])

/-- One level of the lane tree. -/
def treeLevel (op : Nat → Nat → Nat × Flags) : List RNode → List RNode × List (Nat × Flags)
  | x :: y :: rest =>
    let (n, e) := comb op (fun la _ => la) x y
    let (ns, es) := treeLevel op rest
    (n :: ns, e ++ es)
  | l => (l, [])

/-- The five levels over a word's lanes. -/
def treeFold (op : Nat → Nat → Nat × Flags) : Nat → List RNode → RNode × List (Nat × Flags)
  | 0, l => (l.headD none, [])
  | n + 1, l =>
    let (l', e) := treeLevel op l
    let (r, es) := treeFold op n l'
    (r, e ++ es)

/-- The lanes of a word as nodes: value and lane number. -/
def leaves (t : Team) (wide : Bool) (a w : Nat) (eff : W32) : List RNode :=
  (List.range 32).map fun b => if eff.getLsbD b then some (t.elem wide a w b, 32 * w + b) else none

/-- The fold across words (R152) from `acc` on: the result and the flags. -/
def redWords (op : Nat → Nat → Nat × Flags) (t : Team) (wide : Bool) (a : Nat) :
    List (Nat × W32) → RNode → RNode × List (Nat × Flags)
  | [], acc => (acc, [])
  | (w, eff) :: rest, acc =>
    let (part, e) := treeFold op 5 (leaves t wide a w eff)
    let (r, e') := comb op (fun _ lb => lb) acc part
    let (r', es) := redWords op t wide a rest r
    (r', e ++ e' ++ es)

/-- A step of a reduction: the operation on a lane's elements. -/
def redOp (t : Team) (el : Ctx → Nat → Nat → Nat → Nat × Flags) (a b : Nat) : Nat × Flags := laneFn t.ctx.et (el t.ctx) a b 0

/-- The passes of VREDW: each folds its word into the result so far, which s[D] takes after the last (R152). -/
def reduceLanes (f : FS) (el : Ctx → Nat → Nat → Nat → Nat × Flags) (t : Team) : Lanes :=
  let wide := t.ctx.et.wide
  { reads := pairOf wide f.a.toNat
    gone := lastRead f.sv f.l wide f.a.toNat
    fold := true
    body := fun u w eff =>
      let (acc, fl) := redWords (redOp t el) u wide f.a.toNat [(w, eff)] u.prog.acc
      ({ u with prog := { u.prog with acc := acc } }, fl.map fun e => (e.1 - 32 * w, e.2))
    finish := fun u =>
      match u.prog.acc with
      | none => u
      | some (v, _) => u.setS f.d.toNat (extend t.ctx.et v) }

/-- VREDW (R152). -/
def reduce (i : Instr) (f : FS) (s : State) (rm : Team → Bool) (el : Ctx → Nat → Nat → Nat → Nat × Flags) : Result :=
  issueLanes i s (fun _ => [f.d.toNat]) { rm := rm, fields := [f.a.toNat] } (reduceLanes f el)

def execVredwAdd (f : FS) (s : State) : Result := reduce (.vredwAdd f) f s roundsFloat addElem
def execVredwMin (f : FS) (s : State) : Result := reduce (.vredwMin f) f s (fun _ => false) (minMaxElem false)
def execVredwMax (f : FS) (s : State) : Result := reduce (.vredwMax f) f s (fun _ => false) (minMaxElem true)
def execVredwAnd (f : FS) (s : State) : Result := reduce (.vredwAnd f) f s (fun _ => false) (bitElem (· &&& ·))
def execVredwOr (f : FS) (s : State) : Result := reduce (.vredwOr f) f s (fun _ => false) (bitElem (· ||| ·))
def execVredwXor (f : FS) (s : State) : Result := reduce (.vredwXor f) f s (fun _ => false) (bitElem (· ^^^ ·))

/-! ### Quantisation (R153, R154) -/

/-- The frame index of a lane under a frame operand (R153). -/
def laneIndex (b : W64) (lane : Nat) : Nat := (b.toNat % 2 ^ 32 + lane * (b.toNat / 2 ^ 32)) % 2 ^ 32

/-- VQNT and VDQNT: one source, key FKEY, frame operand B; no MODE field decides a check but the guard. -/
def vecFrame (i : Instr) (f : QN) (s : State) (fn : NFmt → W32 → Bool → Nat → Nat → Nat × Flags) : Result :=
  issueLanes i s (fun _ => [f.b.toNat]) { et := false } fun t =>
    laneOp false false (some f.a.toNat) none none f.d.toNat [] fun n a _ _ =>
      fn (NFmt.ofCode f.f.toNat) t.fkey t.ftz (laneIndex (t.src f.b) n) a

def execVqnt (f : QN) (s : State) : Result :=
  vecFrame (.vqnt f) f s fun g key ftz i a => g.quantise (fmtF32.read ftz a) i key
def execVdqnt (f : QN) (s : State) : Result :=
  vecFrame (.vdqnt f) f s fun g key _ i a => ((fmtF32.round .rne (g.reconVal (a % 2 ^ g.bits) i key)).1, 0)

end Sys2Proof.Machine
end

