-- ==== Sys2Proof/Machine/Dispatch.lean ====
section
/-! DEFINITION. The dispatch: one arm per constructor of `Instr`, in the order of spec/opcode_table.json. -/

namespace Sys2Proof.Machine

def exec (i : Instr) (s : State) : Host.Outcome State Fault Refusal :=
  match i with
  | .sadd f => Sys2Proof.Machine.execSadd f s
  | .ssub f => Sys2Proof.Machine.execSsub f s
  | .smul f => Sys2Proof.Machine.execSmul f s
  | .smulh f => Sys2Proof.Machine.execSmulh f s
  | .sand f => Sys2Proof.Machine.execSand f s
  | .sor f => Sys2Proof.Machine.execSor f s
  | .sxor f => Sys2Proof.Machine.execSxor f s
  | .sandn f => Sys2Proof.Machine.execSandn f s
  | .sshl f => Sys2Proof.Machine.execSshl f s
  | .sshr f => Sys2Proof.Machine.execSshr f s
  | .ssar f => Sys2Proof.Machine.execSsar f s
  | .srot f => Sys2Proof.Machine.execSrot f s
  | .smin f => Sys2Proof.Machine.execSmin f s
  | .smax f => Sys2Proof.Machine.execSmax f s
  | .sminu f => Sys2Proof.Machine.execSminu f s
  | .smaxu f => Sys2Proof.Machine.execSmaxu f s
  | .slea4 f => Sys2Proof.Machine.execSlea4 f s
  | .slea8 f => Sys2Proof.Machine.execSlea8 f s
  | .smulhu f => Sys2Proof.Machine.execSmulhu f s
  | .saddi f => Sys2Proof.Machine.execSaddi f s
  | .sandi f => Sys2Proof.Machine.execSandi f s
  | .sshli f => Sys2Proof.Machine.execSshli f s
  | .sshri f => Sys2Proof.Machine.execSshri f s
  | .smovi f => Sys2Proof.Machine.execSmovi f s
  | .sseth f => Sys2Proof.Machine.execSseth f s
  | .ssett f => Sys2Proof.Machine.execSsett f s
  | .scmp f => Sys2Proof.Machine.execScmp f s
  | .smov f => Sys2Proof.Machine.execSmov f s
  | .snot f => Sys2Proof.Machine.execSnot f s
  | .sneg f => Sys2Proof.Machine.execSneg f s
  | .spopc f => Sys2Proof.Machine.execSpopc f s
  | .sclz f => Sys2Proof.Machine.execSclz f s
  | .sctz f => Sys2Proof.Machine.execSctz f s
  | .sbrev f => Sys2Proof.Machine.execSbrev f s
  | .ssext32 f => Sys2Proof.Machine.execSsext32 f s
  | .szext32 f => Sys2Proof.Machine.execSzext32 f s
  | .sabs f => Sys2Proof.Machine.execSabs f s
  | .mand f => Sys2Proof.Machine.execMand f s
  | .mandn f => Sys2Proof.Machine.execMandn f s
  | .mor f => Sys2Proof.Machine.execMor f s
  | .mxor f => Sys2Proof.Machine.execMxor f s
  | .mnot f => Sys2Proof.Machine.execMnot f s
  | .mpopc f => Sys2Proof.Machine.execMpopc f s
  | .mffs f => Sys2Proof.Machine.execMffs f s
  | .mset f => Sys2Proof.Machine.execMset f s
  | .mclr f => Sys2Proof.Machine.execMclr f s
  | .mcpy f => Sys2Proof.Machine.execMcpy f s
  | .br f => Sys2Proof.Machine.execBr f s
  | .brz f => Sys2Proof.Machine.execBrz f s
  | .brnz f => Sys2Proof.Machine.execBrnz f s
  | .brzm f => Sys2Proof.Machine.execBrzm f s
  | .brnzm f => Sys2Proof.Machine.execBrnzm f s
  | .call f => Sys2Proof.Machine.execCall f s
  | .jmpr f => Sys2Proof.Machine.execJmpr f s
  | .callr f => Sys2Proof.Machine.execCallr f s
  | .ret f => Sys2Proof.Machine.execRet f s
  | .mma f => Sys2Proof.Machine.execMma f s
  | .mmag f => Sys2Proof.Machine.execMmag f s
  | .mzero f => Sys2Proof.Machine.execMzero f s
  | .mldacc f => Sys2Proof.Machine.execMldacc f s
  | .mdrain f => Sys2Proof.Machine.execMdrain f s
  | .mdraina f => Sys2Proof.Machine.execMdraina f s
  | .mqnt f => Sys2Proof.Machine.execMqnt f s
  | .mdrainb f => Sys2Proof.Machine.execMdrainb f s
  | .vadd f => Sys2Proof.Machine.execVadd f s
  | .vsub f => Sys2Proof.Machine.execVsub f s
  | .vmul f => Sys2Proof.Machine.execVmul f s
  | .vmulh f => Sys2Proof.Machine.execVmulh f s
  | .vfma f => Sys2Proof.Machine.execVfma f s
  | .vfms f => Sys2Proof.Machine.execVfms f s
  | .vmin f => Sys2Proof.Machine.execVmin f s
  | .vmax f => Sys2Proof.Machine.execVmax f s
  | .vand f => Sys2Proof.Machine.execVand f s
  | .vor f => Sys2Proof.Machine.execVor f s
  | .vxor f => Sys2Proof.Machine.execVxor f s
  | .vandn f => Sys2Proof.Machine.execVandn f s
  | .vshl f => Sys2Proof.Machine.execVshl f s
  | .vshr f => Sys2Proof.Machine.execVshr f s
  | .vsar f => Sys2Proof.Machine.execVsar f s
  | .vrot f => Sys2Proof.Machine.execVrot f s
  | .vcmp f => Sys2Proof.Machine.execVcmp f s
  | .vsel f => Sys2Proof.Machine.execVsel f s
  | .vflk f => Sys2Proof.Machine.execVflk f s
  | .vmov f => Sys2Proof.Machine.execVmov f s
  | .vneg f => Sys2Proof.Machine.execVneg f s
  | .vabs f => Sys2Proof.Machine.execVabs f s
  | .vnot f => Sys2Proof.Machine.execVnot f s
  | .vpopc f => Sys2Proof.Machine.execVpopc f s
  | .vclz f => Sys2Proof.Machine.execVclz f s
  | .vflr f => Sys2Proof.Machine.execVflr f s
  | .vceil f => Sys2Proof.Machine.execVceil f s
  | .vtrnc f => Sys2Proof.Machine.execVtrnc f s
  | .vrnd f => Sys2Proof.Machine.execVrnd f s
  | .vlane f => Sys2Proof.Machine.execVlane f s
  | .vbrev f => Sys2Proof.Machine.execVbrev f s
  | .vclass f => Sys2Proof.Machine.execVclass f s
  | .vdiv f => Sys2Proof.Machine.execVdiv f s
  | .vrcp f => Sys2Proof.Machine.execVrcp f s
  | .vsqrt f => Sys2Proof.Machine.execVsqrt f s
  | .vrsq f => Sys2Proof.Machine.execVrsq f s
  | .vexp2 f => Sys2Proof.Machine.execVexp2 f s
  | .vlog2 f => Sys2Proof.Machine.execVlog2 f s
  | .vsin f => Sys2Proof.Machine.execVsin f s
  | .vcos f => Sys2Proof.Machine.execVcos f s
  | .vtanh f => Sys2Proof.Machine.execVtanh f s
  | .vsigm f => Sys2Proof.Machine.execVsigm f s
  | .vexp f => Sys2Proof.Machine.execVexp f s
  | .vlog f => Sys2Proof.Machine.execVlog f s
  | .vcvt f => Sys2Proof.Machine.execVcvt f s
  | .vmovs f => Sys2Proof.Machine.execVmovs f s
  | .vgets f => Sys2Proof.Machine.execVgets f s
  | .vshfl f => Sys2Proof.Machine.execVshfl f s
  | .vbfly f => Sys2Proof.Machine.execVbfly f s
  | .vredwAdd f => Sys2Proof.Machine.execVredwAdd f s
  | .vredwMin f => Sys2Proof.Machine.execVredwMin f s
  | .vredwMax f => Sys2Proof.Machine.execVredwMax f s
  | .vredwAnd f => Sys2Proof.Machine.execVredwAnd f s
  | .vredwOr f => Sys2Proof.Machine.execVredwOr f s
  | .vredwXor f => Sys2Proof.Machine.execVredwXor f s
  | .vaddi f => Sys2Proof.Machine.execVaddi f s
  | .vmovi f => Sys2Proof.Machine.execVmovi f s
  | .vqnt f => Sys2Proof.Machine.execVqnt f s
  | .vdqnt f => Sys2Proof.Machine.execVdqnt f s
  | .cpy f => Sys2Proof.Machine.execCpy f s
  | .cpyq f => Sys2Proof.Machine.execCpyq f s
  | .cpyp f => Sys2Proof.Machine.execCpyp f s
  | .launch f => Sys2Proof.Machine.execLaunch f s
  | .publish f => Sys2Proof.Machine.execPublish f s
  | .unpub f => Sys2Proof.Machine.execUnpub f s
  | .vld f => Sys2Proof.Machine.execVld f s
  | .vldb f => Sys2Proof.Machine.execVldb f s
  | .vldh f => Sys2Proof.Machine.execVldh f s
  | .vldd f => Sys2Proof.Machine.execVldd f s
  | .vst f => Sys2Proof.Machine.execVst f s
  | .vstb f => Sys2Proof.Machine.execVstb f s
  | .vsth f => Sys2Proof.Machine.execVsth f s
  | .vstd f => Sys2Proof.Machine.execVstd f s
  | .vldl f => Sys2Proof.Machine.execVldl f s
  | .vstl f => Sys2Proof.Machine.execVstl f s
  | .vldlb f => Sys2Proof.Machine.execVldlb f s
  | .vstlb f => Sys2Proof.Machine.execVstlb f s
  | .sld f => Sys2Proof.Machine.execSld f s
  | .sldacq f => Sys2Proof.Machine.execSldacq f s
  | .sst f => Sys2Proof.Machine.execSst f s
  | .sstrel f => Sys2Proof.Machine.execSstrel f s
  | .amoadd f => Sys2Proof.Machine.execAmoadd f s
  | .amoand f => Sys2Proof.Machine.execAmoand f s
  | .amoor f => Sys2Proof.Machine.execAmoor f s
  | .amoxor f => Sys2Proof.Machine.execAmoxor f s
  | .amomin f => Sys2Proof.Machine.execAmomin f s
  | .amomax f => Sys2Proof.Machine.execAmomax f s
  | .amoswp f => Sys2Proof.Machine.execAmoswp f s
  | .amocas f => Sys2Proof.Machine.execAmocas f s
  | .cpref f => Sys2Proof.Machine.execCpref f s
  | .cprefl2 f => Sys2Proof.Machine.execCprefl2 f s
  | .cflush f => Sys2Proof.Machine.execCflush f s
  | .cinv f => Sys2Proof.Machine.execCinv f s
  | .redadd f => Sys2Proof.Machine.execRedadd f s
  | .redadds f => Sys2Proof.Machine.execRedadds f s
  | .nop f => Sys2Proof.Machine.execNop f s
  | .exit f => Sys2Proof.Machine.execExit f s
  | .yield f => Sys2Proof.Machine.execYield f s
  | .trap f => Sys2Proof.Machine.execTrap f s
  | .eret f => Sys2Proof.Machine.execEret f s
  | .halt f => Sys2Proof.Machine.execHalt f s
  | .modei f => Sys2Proof.Machine.execModei f s
  | .modew f => Sys2Proof.Machine.execModew f s
  | .moder f => Sys2Proof.Machine.execModer f s
  | .sysr f => Sys2Proof.Machine.execSysr f s
  | .sysw f => Sys2Proof.Machine.execSysw f s
  | .fence f => Sys2Proof.Machine.execFence f s
  | .waitc f => Sys2Proof.Machine.execWaitc f s
  | .rdc f => Sys2Proof.Machine.execRdc f s
  | .bararr f => Sys2Proof.Machine.execBararr f s
  | .barwait f => Sys2Proof.Machine.execBarwait f s
  | .barsync f => Sys2Proof.Machine.execBarsync f s
  | .bartest f => Sys2Proof.Machine.execBartest f s
  | .phadv f => Sys2Proof.Machine.execPhadv f s
  | .txbegin f => Sys2Proof.Machine.execTxbegin f s
  | .txend f => Sys2Proof.Machine.execTxend f s
  | .txabort f => Sys2Proof.Machine.execTxabort f s
  | .txstat f => Sys2Proof.Machine.execTxstat f s
  | .rmap f => Sys2Proof.Machine.execRmap f s
  | .reservedEncoding word => Sys2Proof.Machine.execReservedEncoding word s
  | .issueSelection core => Sys2Proof.Machine.execIssueSelection core s
  | .checkerCacheFill core => Sys2Proof.Machine.execCheckerCacheFill core s
  | .storeQueueDrain core => Sys2Proof.Machine.execStoreQueueDrain core s
  | .marginWindow core => Sys2Proof.Machine.execMarginWindow core s
  | .deadlockBreaker core => Sys2Proof.Machine.execDeadlockBreaker core s
  | .trapEntry team => Sys2Proof.Machine.execTrapEntry team s
  | .preemptionRequest gang reason => Sys2Proof.Machine.execPreemptionRequest gang reason s
  | .preemptionEntry gang => Sys2Proof.Machine.execPreemptionEntry gang s
  | .forcedPreemption gang => Sys2Proof.Machine.execForcedPreemption gang s
  | .systemModeOverrun team => Sys2Proof.Machine.execSystemModeOverrun team s
  | .restoreEntry team => Sys2Proof.Machine.execRestoreEntry team s
  | .qtail q value => Sys2Proof.Machine.execQtail q value s
  | .packetAcceptance q => Sys2Proof.Machine.execPacketAcceptance q s
  | .teamStart gang => Sys2Proof.Machine.execTeamStart gang s
  | .teamEnd team => Sys2Proof.Machine.execTeamEnd team s
  | .gridRetirement seq => Sys2Proof.Machine.execGridRetirement seq s
  | .teamStop team => Sys2Proof.Machine.execTeamStop team s
  | .preempt value => Sys2Proof.Machine.execPreempt value s
  | .vaultReport die vault layers => Sys2Proof.Machine.execVaultReport die vault layers s
  | .migrationScan die => Sys2Proof.Machine.execMigrationScan die s
  | .priorityPreemption die => Sys2Proof.Machine.execPriorityPreemption die s
  | .reservationGrant cluster => Sys2Proof.Machine.execReservationGrant cluster s
  | .starvation cluster op => Sys2Proof.Machine.execStarvation cluster op s
  | .gatherDone cluster op => Sys2Proof.Machine.execGatherDone cluster op s
  | .subarrayWake cluster op => Sys2Proof.Machine.execSubarrayWake cluster op s
  | .subarrayGating core => Sys2Proof.Machine.execSubarrayGating core s
  | .taperVerdict cluster op claims residueFired => Sys2Proof.Machine.execTaperVerdict cluster op claims residueFired s
  | .copyExecution cluster => Sys2Proof.Machine.execCopyExecution cluster s
  | .engineCompletion cluster op => Sys2Proof.Machine.execEngineCompletion cluster op s
  | .phaseRelease team => Sys2Proof.Machine.execPhaseRelease team s
  | .publishCompletion team => Sys2Proof.Machine.execPublishCompletion team s
  | .windowWithdrawal gang base => Sys2Proof.Machine.execWindowWithdrawal gang base s
  | .txCommit cluster => Sys2Proof.Machine.execTxCommit cluster s
  | .amoPerform n => Sys2Proof.Machine.execAmoPerform n s
  | .detBoundary seq => Sys2Proof.Machine.execDetBoundary seq s
  | .tlbictl value => Sys2Proof.Machine.execTlbictl value s
  | .asidtab value => Sys2Proof.Machine.execAsidtab value s
  | .fqresp value => Sys2Proof.Machine.execFqresp value s
  | .softError site corrected => Sys2Proof.Machine.execSoftError site corrected s
  | .phaseFailure die quadrant => Sys2Proof.Machine.execPhaseFailure die quadrant s
  | .qcapUpdate die watts floor => Sys2Proof.Machine.execQcapUpdate die watts floor s
  | .qcapRise die => Sys2Proof.Machine.execQcapRise die s
  | .currentGrant cluster work => Sys2Proof.Machine.execCurrentGrant cluster work s
  | .moduleReset first later => Sys2Proof.Machine.execModuleReset first later s
  | .hostApertureAccess bulk offset op => Sys2Proof.Machine.execHostApertureAccess bulk offset op s
  | .registerWrite offset bytes => Sys2Proof.Machine.execRegisterWrite offset bytes s
  | .attctlGo value => Sys2Proof.Machine.execAttctlGo value s
  | .attestationDone => Sys2Proof.Machine.execAttestationDone s
  | .telemetryUpdate samples => Sys2Proof.Machine.execTelemetryUpdate samples s
  | .modulePowerCap watts => Sys2Proof.Machine.execModulePowerCap watts s
  | .capEnforcement inputWatts => Sys2Proof.Machine.execCapEnforcement inputWatts s
  | .destinationAcceptance t crc => Sys2Proof.Machine.execDestinationAcceptance t crc s
  | .peerInvalidation region => Sys2Proof.Machine.execPeerInvalidation region s
  | .invalidationAck plane region => Sys2Proof.Machine.execInvalidationAck plane region s
  | .fmodWrite value => Sys2Proof.Machine.execFmodWrite value s
  | .routeWrite m value => Sys2Proof.Machine.execRouteWrite m value s
  | .noUsablePlaneTimeout m => Sys2Proof.Machine.execNoUsablePlaneTimeout m s
  | .deathNotice m boundary => Sys2Proof.Machine.execDeathNotice m boundary s
  | .boundaryMarker e => Sys2Proof.Machine.execBoundaryMarker e s
  | .layerRailFault die layer millivolts => Sys2Proof.Machine.execLayerRailFault die layer millivolts s
  | .burstExpiry cluster work renew => Sys2Proof.Machine.execBurstExpiry cluster work renew s
  | .meterWindow port => Sys2Proof.Machine.execMeterWindow port s
  | .marginPublish port margin0 margin1 => Sys2Proof.Machine.execMarginPublish port margin0 margin1 s
  | .marginWarning port => Sys2Proof.Machine.execMarginWarning port s
  | .laneRemoval port lane1 => Sys2Proof.Machine.execLaneRemoval port lane1 s
  | .laneRetrain port lane1 => Sys2Proof.Machine.execLaneRetrain port lane1 s
  | .laneReturn port lane1 => Sys2Proof.Machine.execLaneReturn port lane1 s
  | .switchRemovalReport plane => Sys2Proof.Machine.execSwitchRemovalReport plane s
  | .translationWalk => Sys2Proof.Machine.execTranslationWalk s
  | .dependenceEvaluation => Sys2Proof.Machine.execDependenceEvaluation s
  | .selection => Sys2Proof.Machine.execSelection s
  | .effectiveLevelAging => Sys2Proof.Machine.execEffectiveLevelAging s
  | .gangOffer => Sys2Proof.Machine.execGangOffer s
  | .gangReoffer => Sys2Proof.Machine.execGangReoffer s
  | .tallowTick => Sys2Proof.Machine.execTallowTick s
  | .refreshCharge => Sys2Proof.Machine.execRefreshCharge s
  | .tlbInvalidationDone => Sys2Proof.Machine.execTlbInvalidationDone s
  | .hostLinkLoss => Sys2Proof.Machine.execHostLinkLoss s
  | .heartbeat => Sys2Proof.Machine.execHeartbeat s
  | .boundaryAck => Sys2Proof.Machine.execBoundaryAck s

end Sys2Proof.Machine
end

