-- ==== Sys2Proof/Machine/Pipeline.lean ====
section
/-! DEFINITION. The verdicts on what the main pipeline claimed (spec/08 R183 to R186, R192, R204): after a step, the passes that
it has checked are held against the entries of the operand log. -/

namespace Sys2Proof.Machine

/-- The effective word under which the committed state issues a pass; 0 where it skips it (R15, R150). -/
def Team.checkedMask (t : Team) (i : Instr) (w : Nat) : W32 :=
  match i with
  | .vgets f => ((getsWords f t).find? fun e => e.1 == w).elim 0 (·.2)
  | _ => if (useOf t i).lanes then t.effWord w else 0xFFFFFFFF

/-- The words of active lanes in register rows. -/
def Team.laneWords (t : Team) (regs : List Nat) (w : Nat) (eff : W32) : List W64 :=
  regs.flatMap fun r => (activeBits eff).map fun b => BitVec.ofNat 64 (t.elem false r w b)

/-- The operand values of a pass in committed state; those of a lane exchange may come of any word. -/
def Team.operandsOf (t : Team) (u : Use) (w : Nat) (eff : W32) : List W64 :=
  u.s.map (fun f => t.src (BitVec.ofNat 7 f)) ++ t.laneWords u.v w eff ++
    (List.range t.words).flatMap fun v => t.laneWords u.vall v 0xFFFFFFFF

/-- The scalar results of a pass in the state after it: the word of the block that a pass of VCMP writes, and what the last pass
of another instruction writes; what comes from outside the core is committed when it arrives (R189). -/
def Team.scalarsOf (t : Team) (i : Instr) (u : Use) (w : Nat) (last : Bool) : List W64 :=
  match i with
  | .vcmp f => [(t.maskWord f.d.toNat w).setWidth 64]
  | _ => if last && !u.outside then u.sd.map t.sreg else []

/-- The effects of a scalar operation on MODE, and on the system register that SYSW writes, whose content after it is `reg`
(R184). -/
def Team.effectsOf (t : Team) (reg : W64) : Instr → List W64
  | .modei _ | .modew _ | .eret _ => [t.mode.setWidth 64]
  | .sysw _ => [reg]
  | _ => []

/-- The results of a pass in the state after it. -/
def Team.resultsOf (t : Team) (i : Instr) (u : Use) (w : Nat) (eff : W32) (last : Bool) (reg : W64) : List W64 :=
  t.scalarsOf i u w last ++ t.effectsOf reg i ++ t.laneWords u.vd w eff

/-- The addresses of a pass (R184). -/
def Team.addressesOf (t : Team) (i : Instr) (w : Nat) (eff : W32) : List W64 :=
  match accessOf i with
  | some x => (t.passAccs x w eff).map (·.ea)
  | none =>
    match i with
    | .sld f | .sldacq f | .sst f | .sstrel f => [t.scalarEA f.s f.a]
    | .cpref f | .cprefl2 f | .cflush f | .cinv f => [t.scalarEA f.s f.a]
    | .amoadd f | .amoand f | .amoor f | .amoxor f | .amomin f | .amomax f | .amoswp f | .amocas f => [t.sreg f.s.toNat]
    | .redadd f | .redadds f => [t.sreg f.s.toNat]
    | _ => []

/-- What the checks of a step have found of a team's instruction: the team before and after it, its word (none where its fetch
trapped), its last pass, the content of the system register that it writes, and whether the results still stand in the
state. -/
structure Checked where
  old : Team
  new : Team
  word : Option W32
  instr : Instr
  last : Nat
  reg : W64
  stands : Bool
  deriving DecidableEq, Repr

/-- How an entry stands against the recomputation of its pass (R185, R192). -/
inductive Agreement where
  | equal
  /-- a load whose values alone differ -/
  | load
  | other
  deriving DecidableEq, Repr

/-- The last pass that committed masks issue. -/
def Checked.lastIssued (c : Checked) : Option Nat :=
  (List.range (c.last + 1)).findRev? fun w => c.old.checkedMask c.instr w != 0

/-- The recomputation of pass `w`, as a claim. -/
def Checked.recomputed (c : Checked) (w : Nat) (trap : Option (BitVec 8)) : Config.Claim :=
  let u := useOf c.old c.instr
  let eff := c.old.checkedMask c.instr w
  { mask := eff, operands := c.old.operandsOf u w eff, addresses := c.old.addressesOf c.instr w eff
    results := c.new.resultsOf c.instr u w eff (c.lastIssued == some w) c.reg
    flags := raisedAll (c.new.pipe.flags.filter fun e => e.w == w)
    trap := trap, next := none }

/-- The verdict on an entry. The target of a branch is compared where the pipeline went on; a trapping pass has no results, and
those of a step that has ended their transaction no longer stand (log 14). Where the fetch traps the trap alone is compared. -/
def Checked.agreement (c : Checked) (e : LogEntry) (w : Nat) (trap : Option (BitVec 8)) : Agreement :=
  let r := c.recomputed w trap
  if c.word.isNone then (if e.claim.trap == trap then .equal else .other)
  else if e.word != c.word || e.claim.mask != r.mask || e.claim.operands != r.operands || e.claim.addresses != r.addresses ||
      e.claim.trap != r.trap then .other
  else if trap.isSome then .equal
  else if e.claim.flags != r.flags then .other
  else if c.stands && e.claim.results != r.results then (if (useOf c.old c.instr).load then .load else .other)
  else .equal

/-- What the verdicts of a step come to: every entry agrees, and `rest` is left; or a mismatch with what is younger. -/
inductive Verdicts where
  | agree (rest : List LogEntry)
  | mismatch (load : Bool) (younger : List LogEntry)
  deriving DecidableEq, Repr

/-- The verdicts on the passes `ws`, each with the trap that its check found (R185): one issued that committed masks skip, or
skipped that they issue, is a mismatch too; a pass that the pipeline has not reached is issued and checked at once. -/
def Checked.verdicts (c : Checked) : List (Nat × Option (BitVec 8)) → List LogEntry → Verdicts
  | [], log => .agree log
  | (w, trap) :: ws, log =>
    let skips := c.old.checkedMask c.instr w == 0 && trap.isNone
    match log with
    | [] =>
      let past := match c.old.pipe.next with
        | none => false
        | some (pc, v) => pc != c.old.pc || decide (w < v)
      if skips || !past then c.verdicts ws [] else .mismatch false []
    | e :: rest =>
      if e.n == c.old.pipe.base && e.w == w then
        if skips then .mismatch false rest
        else
          match c.agreement e w trap with
          | .equal => c.verdicts ws rest
          | .load => .mismatch true rest
          | .other => .mismatch false rest
      else if skips then c.verdicts ws log
      else .mismatch false log

/-- The passes that a step has checked, from the resume pass on: those before a trap, and it; all of a retired instruction;
those committed before the one that waits. -/
def Checked.passes (c : Checked) : List (Nat × Option (BitVec 8)) :=
  let upTo (n : Nat) : List (Nat × Option (BitVec 8)) :=
    ((List.range n).filter fun w => decide (c.old.pass ≤ w)).map fun w => (w, none)
  match c.new.pipe.trapped with
  | some (cause, w) => let w := max w c.old.pass; upTo w ++ [(w, some cause)]
  | none => upTo (if c.new.pipe.went.isSome then c.last + 1 else c.new.pass)

/-- The pipeline after a mismatch (R186): it is counted, the younger entries are flushed, and issue resumes from the committed
state. -/
def Pipeline.flush (p : Pipeline) (load : Bool) (younger : List LogEntry) : Pipeline :=
  { p with
    log := [], next := none, flushed := p.flushed + younger.length
    misload := p.misload + (if load then 1 else 0), miscomp := p.miscomp + (if load then 0 else 1) }

/-- The pipeline when every verdict agrees: the checked entries are freed (R195). After a retirement the place where it went on
must be the committed one (R184); a place that the checker has passed is left. -/
def Pipeline.agreed (p : Pipeline) (base pass : Nat) (rest : List LogEntry) : Pipeline :=
  match p.went with
  | none =>
    { p with log := rest, next := p.next.filter fun e => !(decide (p.count ≤ base) && decide (e.2 ≤ pass)) }
  | some (_, to_) =>
    if p.next.isSome && p.count ≤ base then { p with log := rest, next := none }
    else
      let at_ := match rest with
        | e :: _ => some e.pc
        | [] => p.next.map (·.1)
      if at_ == none || at_ == some to_ then { p with log := rest } else p.flush false rest

/-- The pipeline of a team after the verdicts of a step: none where nothing was checked or the pipeline was not ahead; what the
step has discarded stays discarded (R186, R198). -/
def Checked.judge (c : Checked) : Pipeline :=
  let p := c.new.pipe
  match c.verdicts c.passes c.old.pipe.log with
  | .mismatch load younger => p.flush load younger
  | .agree rest => if p.next.isNone then p else p.agreed c.old.pipe.base c.new.pass rest

/-- The word of a team's instruction as its check had it: none where its fetch trapped. -/
def State.checkedWord (s : State) (k : Nat) (t : Team) : Option W32 :=
  match s.fetch k t with
  | .word w => some w
  | .wait _ => t.pipe.log.head?.bind (·.word)
  | .trap _ => none

/-- The content of the system register that an instruction of a team writes, after it (R184). -/
def State.writtenReg (s : State) (t : Team) : Instr → W64
  | .sysw f => s.sysRead t f.n.toNat
  | _ => 0

/-- The verdicts of a step on one team (R185), `s` being the state after it and `old` the one before. -/
def State.judgeTeam (s old : State) (k : Nat) (t : Team) : Team :=
  match old.team k with
  | none => t
  | some b =>
    if b.pipe.log.isEmpty && b.pipe.next.isNone then t
    else if t.pipe.went.isNone && t.pipe.trapped.isNone && !(t.pc == b.pc && decide (b.pass < t.pass)) then t
    else
      let word := old.checkedWord k b
      let w := word.getD 0
      let i := (word.bind fun w => (decode w).toOption).getD (.reservedEncoding w)
      let c : Checked :=
        { old := b, new := t, word := word, instr := i, last := if (useOf b i).lanes then b.words - 1 else 0
          reg := s.writtenReg t i, stands := !(b.txstat.active && !t.txstat.active) }
      { t with pipe := c.judge }

/-- The verdicts of a step, `old` being the state before it. -/
def State.takeVerdicts (s old : State) : State := { s with teams := s.teams.map fun e => (e.1, s.judgeTeam old e.1 e.2) }

end Sys2Proof.Machine
end

