-- ==== Sys2Proof/Machine/Fetch.lean ====
section
/-! DEFINITION. What the machine does next: the head of the schedule, or the next instruction of the selected team. -/

namespace Sys2Proof.Machine

/-- The next thing to happen. -/
inductive Turn where
  | exec (i : Instr) (s : State)
  | idle (s : State)
  deriving DecidableEq, Repr

/-- The instruction that a word stands for; a word that decodes to none is RESERVED_ENCODING (R63). -/
def instrOf (w : W32) : Instr :=
  match decode w with
  | .ok i => i
  | .error _ => .reservedEncoding w

/-- A fetched word is executed; where it has passed between dies and its CRC check has failed twice, it is poisoned (R435, R466).
Each word that a team fetches is taken as a transaction of its own: the spec gives the fetch no cache (DEDUCED, log 72). -/
def State.fetched (s : State) (k : Nat) (t : Team) (w : W32) : Turn :=
  let (bad, s) := s.crossing (t.core.toNat / 64) (tagOf (t.asid.setWidth 16) t.pc.toNat) t.pc.toNat
  if bad then .idle (s.fetchTrap k t 0x11) else .exec (instrOf w) s

/-- The next instruction of the selected team, or what comes before it: its gang's pre-emption (R261), a reported trap
(R250), or what its fetch brings instead. A team that has yielded stands back (R124): what the core had issued of it before is
checked, and the core selects another. -/
def State.teamTurn (s : State) : Turn :=
  match s.cur with
  | none => .idle s
  | some k =>
    match s.team k with
    | none => .idle s
    | some t =>
      if !t.mayIssue then .idle s
      else if s.preemptDue t then .idle (s.takePreempt t.gangKey)
      else if t.dueReport.isSome then .exec (.nop { sv := 0 }) s
      else if s.standsBack k t && t.pipe.behind then .idle s
      else
        match s.fetch k t with
        | .word w => s.fetched k t w
        | .wait s' => .idle s'
        | .trap c => .idle (s.fetchTrap k t c)

/-- The schedule goes first; when it is empty the selected team runs (log 1). -/
def State.turn (s : State) : Turn :=
  match s.agenda with
  | e :: rest => .exec e { s with agenda := rest }
  | [] => s.teamTurn

/-- After a turn from the state `old` the passes that it has checked get their verdicts (R185), peers' writes that nothing keeps
any longer are performed (R242, R313, R447), the save reserves follow their use (R264), and time passes. -/
def State.settleStep (s old : State) : State :=
  let s := s.takeVerdicts old
  (if s.fabric.heldWrites.isEmpty then s else s.releaseHeld).settleReserve.tick

/-- The outcome of a turn from the state `old`. -/
def tickResult (old : State) : Result → Result
  | .next s => .next (s.settleStep old)
  | r => r

/-- The team that `withFetchWord` selects when no team can issue: team 0 of gang 0 of a one-team grid with sequence
number 0, as launched on core 0 with 32 lanes. -/
def stagedTeam : Team := { seq := 0, gang := 0, num := 0 }
def stagedGang : Gang :=
  { seq := 0, num := 0, stat := .resident, groups := [(0, [0])], coreOf := [(0, 0)], live := [0], remaining := [0] }
def stagedGrid : Grid := { seq := 0, number := 0, queue := 0, slot := 0, stat := .started, dispatched := true }

/-- The staged team made resident and selected. -/
def State.stage (s : State) : State :=
  { s with
    cur := some 0, teams := Tab.put s.teams 0 stagedTeam, gangs := Tab.put s.gangs 0 stagedGang
    grids := Tab.put s.grids 0 stagedGrid }

/-- The state in which a team that can issue is selected. -/
def State.withTeam (s : State) : State :=
  match s.cur.bind s.team with
  | some t => if t.mayIssue && t.dueReport.isNone && t.yielded.isNone && !s.preemptDue t then s else s.stage
  | none => s.stage

/-- Store a word where the selected team fetches: its line is made present with every page bit, over no window, no store of the
core forwards to it, and no CRC check awaits it. -/
def State.placeWord (s : State) (w : W32) : State :=
  let s := { s.withTeam with agenda := [] }
  match s.cur.bind s.team with
  | none => s
  | some t =>
    let va := t.pc.toNat
    let tag := tagOf (t.asid.setWidth 16) va
    let line := match Tab.find s.lines (lineKey tag va) with
      | some l => { l with r := true, w := true, x := true, u := true, poison := 0 }
      | none => { pa := va / 128 * 128, r := true, w := true, x := true, u := true }
    { s with
      gangs := s.gangs.map fun e => (e.1, { e.2 with windows := e.2.windows.filter fun v =>
        !(v.tag == tag && decide (v.base ≤ va) && decide (va < v.base + v.len)) })
      cores := Tab.modify s.cores t.core.toNat fun c => { c with queue := [] }
      teams := s.teams.map fun e => (e.1, { e.2 with buf := [] })
      relia := { s.relia with crcNext := Tab.erase s.relia.crcNext (t.core.toNat / 64) }
      lines := Tab.put s.lines (lineKey tag va) line
      vmem := Memory.writeLE s.vmem (vkey tag va) 4 w.toNat }

end Sys2Proof.Machine
end

