-- ==== Sys2Proof/Machine/Step.lean ====
section
/-! DEFINITION. One step of the machine, and the state in which a given word is fetched next. -/

namespace Sys2Proof.Machine

/-- One step: the next event or instruction happens, and time passes. -/
def step (s : State) : Host.Outcome State Fault Refusal :=
  match s.turn with
  | .exec i s' => tickResult s (exec i s')
  | .idle s' => tickResult s (.next s')

/-- `s` with the instruction word `w` where the next step fetches; a word has 32 bits whatever `nbits` says (R45). -/
def State.withFetchWord (s : State) (_nbits w : Nat) : State := s.placeWord (BitVec.ofNat 32 w)

end Sys2Proof.Machine
end

