-- ==== Sys2Proof/Safety.lean ====
section
/-! DEFINITION. The words in which claims speak: when a team can issue, what an instruction leaves alone, and the form
that a state of the machine keeps. -/

namespace Sys2Proof.Machine

/-! ### When a team can issue -/

/-- Team `t`, known by `k`, is the selected one and can issue an instruction over the scalar fields `uses`: nothing holds
it (R42, R250, R361), no register of the instruction awaits a value (R53) and no AMO goes before it (R233; log 22). -/
abbrev State.CanIssue (s : State) (k : Nat) (t : Team) (uses : List Nat) : Prop :=
  s.cur = some k ∧ s.team k = some t ∧ t.mayIssue = true ∧ t.dueReport = none ∧
    uses.any (t.busy.contains ·) = false ∧ s.amoOut k = false

/-- The same of an instruction of one pass, checked as a scalar operation (R183): the pass is not behind the place that
ERET resumes (R256), and its self-check does not fail twice (R194). -/
abbrev State.CanIssueScalar (s : State) (k : Nat) (t : Team) (uses : List Nat) : Prop :=
  s.CanIssue k t uses ∧ t.pass < t.words ∧ s.checkFires t 0 = none

/-! ### Frames -/

/-- `u` differs from `t` in nothing but the scalar registers `ds` and its place in the program: the PC, the resume pass
and what earlier passes carried to it, RETIRED, the passes in its pipeline, and the end of its DET quantum. -/
def Team.SameBut (t u : Team) (ds : List Nat) : Prop :=
  u = { t with
    s := u.s, pc := u.pc, pass := u.pass, waitOnly := u.waitOnly, rowWait := u.rowWait, retired := u.retired
    inside := u.inside, yielded := u.yielded, park := u.park, prog := u.prog, pipe := u.pipe } ∧
  ∀ n, n ∉ ds → u.sreg n = t.sreg n

/-- RETIRED after the retirement of an instruction (R208). -/
def Team.retiredNext (t : Team) : W64 := if t.sys then t.retired else t.retired + 1

/-- `u` is `t` after an instruction that wrote no more than the scalar registers `ds` retired at `pc`. -/
def Team.Retired (t u : Team) (ds : List Nat) (pc : Addr) : Prop :=
  t.SameBut u ds ∧ u.pc = pc ∧ u.pass = 0 ∧ u.retired = t.retiredNext

/-- `s'` holds every byte of memory, every other team, every gang, grid, core, cluster and die as `s` does. -/
def State.KeepsRest (s s' : State) (k : Nat) : Prop :=
  (∀ l, s'.readLoc l = s.readLoc l) ∧ (∀ a, Memory.read s'.phys a = Memory.read s.phys a) ∧
  (∀ j, j ≠ k → s'.team j = s.team j) ∧ s'.gangs = s.gangs ∧ s'.grids = s.grids ∧ s'.cores = s.cores ∧
  s'.clusters = s.clusters ∧ s'.dies = s.dies

/-! ### Per-lane instructions -/

/-- Each pass of `words` in turn, in the state that the earlier ones leave, reads mapped and sound rows, meets no trap of
its own and no self-check that fails twice, and finds the rows it needs (R36, R38, R194, R236, R401). -/
def Lanes.Clear (p : Lanes) (s : State) : List (Nat × W32) → Team → Prop
  | [], _ => True
  | (w, eff) :: rest, t =>
    p.trapAt s t w eff = none ∧ s.roomFor t p.dst (p.gone.filter fun r => !p.dst.contains r) w (p.lateRows t w rest) = true ∧
      p.Clear s rest (p.pass (s.takeReserve t (t.newRows p.dst w)) w eff).1

/-- Word `w` is issued with lane bit `b` active. -/
def Team.lanesIn (t : Team) (w b : Nat) : Prop := ∃ eff, (w, eff) ∈ t.issued ∧ eff.getLsbD b = true

/-- Word `w` is issued. -/
def Team.issues (t : Team) (w : Nat) : Prop := ∃ eff, (w, eff) ∈ t.issued

/-- `u` differs from `t` in nothing but its register rows with their error marks, FPFLAGS, what its transaction records of
rows, the scalar registers `ds`, its place in the program, the passes in its pipeline and its hold of the save reserve. -/
def Team.SameButRows (t u : Team) (ds : List Nat) : Prop :=
  u = { t with
    s := u.s, rows := u.rows, rowErr := u.rowErr, fpflags := u.fpflags
    tx := { t.tx with touched := u.tx.touched, deferred := u.tx.deferred, deferredErr := u.tx.deferredErr }
    pc := u.pc, pass := u.pass, waitOnly := u.waitOnly, rowWait := u.rowWait, retired := u.retired, park := u.park
    inside := u.inside, yielded := u.yielded, reserve := u.reserve, prog := u.prog, pipe := u.pipe } ∧
  ∀ n, n ∉ ds → u.sreg n = t.sreg n

/-! ### Accesses -/

/-- The access of one lane, or of a scalar, to `width` bytes at `ea` may be performed at `loc` (R157 to R160): it is
aligned, in bounds, granted and present, not held by a withdrawal, and a load meets no poison. -/
abbrev State.Grants (s : State) (k : Nat) (t : Team) (local_ : Bool) (need : Need) (width : Nat) (ea : W64) (loc : Loc)
    (page : Option Page) : Prop :=
  s.accStat k t local_ need width ea = .ok loc page ∧ (need = .load → s.loadPoison t loc = false)

/-- The in-flight counters as the team's own operations leave them: names below the next one, and no path whose oldest
operation is complete (R170). -/
def Team.OpsWf (t : Team) : Prop :=
  ∀ q : Fin 8, (∀ f ∈ t.paths[q], f.id < t.opSeq) ∧ ∀ f, t.paths[q].head? = some f → f.done = false

/-- `u` is `t` after an access that retired: it differs in the registers `ds`, its place in the program, the passes in its
pipeline, its in-flight operations, the queued stores that it has read, and what its DET events record. -/
def Team.SameButAccess (t u : Team) (ds : List Nat) : Prop :=
  u = { t with
    s := u.s, pc := t.pc + 4, pass := 0, waitOnly := false, rowWait := none, retired := t.retiredNext, park := u.park
    inside := false, yielded := u.yielded, prog := u.prog, pipe := u.pipe, seen := u.seen, acquired := u.acquired
    paths := u.paths, opSeq := u.opSeq, openOp := none, detcause := u.detcause, detlog := u.detlog, buf := u.buf } ∧
  (∀ n, n ∉ ds → u.sreg n = t.sreg n) ∧
  (t.launch.det = false → u.detcause = t.detcause ∧ u.detlog = t.detlog ∧ u.buf = t.buf)

/-- The counters of the paths other than `p` stand after an access on path `p`; the counter of `p` is at most one higher. -/
def Team.CountsAccess (t u : Team) (p : Fin 8) : Prop :=
  t.openOp = none → t.OpsWf → (∀ q, q ≠ p → u.counter q = t.counter q) ∧ u.counter p ≤ t.counter p + 1

/-- Coherent memory, home memory, cached lines and every other team, gang, cluster and die are in `s'` as in `s`. -/
def State.KeepsMemory (s s' : State) (k : Nat) : Prop :=
  (∀ l, s'.readLoc l = s.readLoc l) ∧ s'.phys = s.phys ∧ s'.vmem = s.vmem ∧ s'.lines = s.lines ∧
  (∀ j, j ≠ k → s'.team j = s.team j) ∧ (s.fabric.peerLines = [] → s'.grids = s.grids) ∧ s'.gangs = s.gangs ∧
   s'.clusters = s.clusters ∧ s'.dies = s.dies

/-! ### Invariants -/

/-- The byte memories of the machine keep their canonical form. -/
def State.MemoryWf (s : State) : Prop :=
  Memory.wf s.phys ∧ Memory.wf s.vmem

end Sys2Proof.Machine
end

