-- ==== Sys2Proof/Certificates/Slice0/Obligations.lean ====
section
/-! DEFINITION. The statements for the provers: what the instructions, the events and the machine do, each from the
rules of the spec that its docstring names. -/

open Sys2Proof Sys2Proof.Machine

/-! ## Scalar instructions -/

namespace Sys2Proof.Claims

/-- The results of R110, written from its table. -/
def scalar3Results : List ((S3 → Instr) × (W64 → W64 → W64)) :=
  [(.sadd, fun a b => a + b), (.ssub, fun a b => a - b), (.smul, fun a b => a * b),
   (.smulh, fun a b => (a.signExtend 128 * b.signExtend 128).extractLsb' 64 64),
   (.sand, fun a b => a &&& b), (.sor, fun a b => a ||| b), (.sxor, fun a b => a ^^^ b),
   (.sandn, fun a b => a &&& ~~~b),
   (.sshl, fun a b => a <<< (b.toNat % 64)), (.sshr, fun a b => a >>> (b.toNat % 64)),
   (.ssar, fun a b => a.sshiftRight (b.toNat % 64)),
   (.srot, fun a b => a <<< (b.toNat % 64) ||| a >>> (64 - b.toNat % 64)),
   (.smin, fun a b => BitVec.ofInt 64 (min a.toInt b.toInt)), (.smax, fun a b => BitVec.ofInt 64 (max a.toInt b.toInt)),
   (.sminu, fun a b => BitVec.ofNat 64 (min a.toNat b.toNat)), (.smaxu, fun a b => BitVec.ofNat 64 (max a.toNat b.toNat)),
   (.slea4, fun a b => a + (b <<< 2)), (.slea8, fun a b => a + (b <<< 3)),
   (.smulhu, fun a b => (a.setWidth 128 * b.setWidth 128).extractLsb' 64 64)]

/-- The results of R114, written from its table. -/
def scalarFnResults : List ((FS → Instr) × (W64 → W64)) :=
  [(.smov, fun a => a), (.snot, fun a => ~~~a), (.sneg, fun a => 0 - a),
   (.spopc, fun a => BitVec.ofNat 64 ((List.range 64).countP fun i => a.getLsbD i)),
   (.sclz, fun a => BitVec.ofNat 64 ((List.range 64).takeWhile fun i => !a.getLsbD (63 - i)).length),
   (.sctz, fun a => BitVec.ofNat 64 ((List.range 64).takeWhile fun i => !a.getLsbD i).length),
   (.sbrev, fun a => a.reverse), (.ssext32, fun a => (a.extractLsb' 0 32).signExtend 64),
   (.szext32, fun a => a &&& 0xFFFFFFFF#64), (.sabs, fun a => if 0 ≤ a.toInt then a else 0 - a)]

/-- The results of R112: from the register as it stood and the immediate. -/
def scalarConstResults : List ((LI → Instr) × (W64 → BitVec 17 → W64)) :=
  [(.smovi, fun _ i => i.signExtend 64), (.sseth, fun d i => i.signExtend 47 ++ d.extractLsb' 0 17),
   (.ssett, fun d i => i.signExtend 30 ++ d.extractLsb' 0 34)]

/-- The conditions of R113 by the value of C. -/
def scalarConditions : List (W64 → W64 → Bool) :=
  [fun a b => a = b, fun a b => a ≠ b, fun a b => a.toInt < b.toInt, fun a b => b.toInt ≤ a.toInt,
   fun a b => a.toNat < b.toNat, fun a b => b.toNat ≤ a.toNat, fun a b => a &&& b ≠ 0, fun a b => a &&& b = 0]

/-- An instruction over the fields `uses` whose whole effect is to write `v` to `s[d]` and to go on at the next word:
nothing else of the team changes but RETIRED and what the reads of placement values record, and nothing else of the
machine at all. -/
def WritesScalar (i : Instr) (s : State) (k : Nat) (t : Team) (uses : List Nat) (d : Nat) (v : W64) : Prop :=
  ∃ u, exec i s = .next (s.setTeam k u) ∧ s.KeepsRest (s.setTeam k u) k ∧ (t.reading uses).Retired u [d] (t.pc + 4) ∧
    (d < 64 → u.sreg d = v)

end Sys2Proof.Claims

/-- R110: SADD, SSUB, SMUL, SMULH, SAND, SOR, SXOR, SANDN, SSHL, SSHR, SSAR, SROT, SMIN, SMAX, SMINU, SMAXU, SLEA4, SLEA8
and SMULHU complete with the result of its table in s[D], and change nothing else. -/
def Obligations.ScalarThreeOperandResults : Prop :=
  ∀ e ∈ Claims.scalar3Results, ∀ (f : S3) (s : State) (k : Nat) (t : Team),
    s.CanIssueScalar k t [f.d.toNat, f.a.toNat, f.b.toNat] →
    Claims.WritesScalar (e.1 f) s k t [f.d.toNat, f.a.toNat, f.b.toNat] f.d.toNat (e.2 (t.src f.a) (t.src f.b))

/-- R111: SADDI, SANDI, SSHLI and SSHRI complete with their results. -/
def Sys2Proof.Claims.ScalarImmediateResults : Prop :=
  (∀ (f : SI) (s : State) (k : Nat) (t : Team), s.CanIssueScalar k t [f.d.toNat, f.a.toNat] →
    Claims.WritesScalar (.saddi f) s k t [f.d.toNat, f.a.toNat] f.d.toNat (t.src f.a + f.i.signExtend 64) ∧
    Claims.WritesScalar (.sandi f) s k t [f.d.toNat, f.a.toNat] f.d.toNat (t.src f.a &&& f.i.signExtend 64)) ∧
  (∀ (f : SH) (s : State) (k : Nat) (t : Team), s.CanIssueScalar k t [f.d.toNat, f.a.toNat] →
    Claims.WritesScalar (.sshli f) s k t [f.d.toNat, f.a.toNat] f.d.toNat (t.src f.a <<< f.i.toNat) ∧
    Claims.WritesScalar (.sshri f) s k t [f.d.toNat, f.a.toNat] f.d.toNat (t.src f.a >>> f.i.toNat))

/-- R112: SMOVI, SSETH and SSETT complete, each with the fields of its table in s[D]. -/
def Sys2Proof.Claims.ScalarConstantResults : Prop :=
  ∀ e ∈ Claims.scalarConstResults, ∀ (f : LI) (s : State) (k : Nat) (t : Team),
    s.CanIssueScalar k t [f.d.toNat, f.d.toNat] →
    Claims.WritesScalar (e.1 f) s k t [f.d.toNat, f.d.toNat] f.d.toNat (e.2 (t.src f.d) f.i)

/-- R111, R112: the scalar instructions with an immediate. -/
def Obligations.ScalarImmediateAndConstantResults : Prop := Claims.ScalarImmediateResults ∧ Claims.ScalarConstantResults


/-- R113: SCMP, in the format CS under MAJ 0x0B with every condition assigned, completes and writes 1 where its condition
holds, else 0. -/
def Obligations.ScalarCompareResult : Prop :=
  (∀ f : CS, encode (.scmp f) = some (f.sv ++ 0x0B#6 ++ f.d ++ f.a ++ f.b ++ f.c)) ∧
  ∀ (f : CS) (s : State) (k : Nat) (t : Team), s.CanIssueScalar k t [f.d.toNat, f.a.toNat, f.b.toNat] →
    Claims.WritesScalar (.scmp f) s k t [f.d.toNat, f.a.toNat, f.b.toNat] f.d.toNat
      (if (Claims.scalarConditions.getD f.c.toNat fun _ _ => false) (t.src f.a) (t.src f.b) then 1 else 0)

/-- R114: SMOV, SNOT, SNEG, SPOPC, SCLZ, SCTZ, SBREV, SSEXT32, SZEXT32 and SABS complete with the result of its table. -/
def Obligations.ScalarFunctionResults : Prop :=
  ∀ e ∈ Claims.scalarFnResults, ∀ (f : FS) (s : State) (k : Nat) (t : Team),
    s.CanIssueScalar k t [f.d.toNat, f.a.toNat] →
    Claims.WritesScalar (e.1 f) s k t [f.d.toNat, f.a.toNat] f.d.toNat (e.2 (t.src f.a))

/-! ## Mask blocks -/

namespace Sys2Proof.Claims

/-- The lane counts of R12. -/
abbrev legalLanes (t : Team) : Prop := t.lanes ∈ [32, 64, 128, 256, 512, 1024]

/-- Mask bit `j` of the block at a source field (R109). -/
def maskBit (t : Team) (f : BitVec 7) (j : Nat) : Bool := (t.src (BitVec.ofNat 7 (f.toNat + j / 64))).getLsbD (j % 64)

/-- Mask bit `j` of the block at s register `n` (R109). -/
def blockBit (t : Team) (n j : Nat) : Bool := (t.sreg (n + j / 64)).getLsbD (j % 64)

/-- The registers of the block at `n`. -/
def blockRange (t : Team) (n : Nat) : List Nat := (List.range (max 1 (t.lanes / 64))).map (n + ·)

/-- The block at a field lies within its file (R109). -/
abbrev blockFits (t : Team) (f : BitVec 7) : Prop := f.toNat % 64 + max 1 (t.lanes / 64) ≤ 64

/-- A mask instruction completes and writes the block at `d` with bits `v`; with 32 lanes the upper half is 0. -/
def WritesBlock (i : Instr) (s : State) (k : Nat) (t : Team) (uses : List Nat) (d : Nat) (v : Nat → Bool) : Prop :=
  ∃ u, exec i s = .next (s.setTeam k u) ∧ s.KeepsRest (s.setTeam k u) k ∧
    (t.reading uses).Retired u (blockRange t d) (t.pc + 4) ∧
    (∀ j, j < t.lanes → blockBit u d j = v j) ∧ (t.lanes = 32 → (u.sreg d).toNat < 2 ^ 32)

/-- The bit operations of R115. -/
def maskAluResults : List ((S3 → Instr) × (Bool → Bool → Bool)) :=
  [(.mand, fun x y => x && y), (.mandn, fun x y => x && !y), (.mor, fun x y => x || y), (.mxor, fun x y => x != y)]

end Sys2Proof.Claims

/-- R115: MAND, MANDN, MOR and MXOR combine two mask blocks bit by bit, every source bit read before a register is
written, so the blocks may overlap. -/
def Sys2Proof.Claims.MaskBlockCombination : Prop :=
  ∀ e ∈ Claims.maskAluResults, ∀ (f : S3) (s : State) (k : Nat) (t : Team), Claims.legalLanes t → f.d.toNat < 64 →
    Claims.blockFits t f.a → Claims.blockFits t f.b → Claims.blockFits t f.d →
    s.CanIssueScalar k t (Claims.blockRange t f.a.toNat ++ Claims.blockRange t f.b.toNat ++ Claims.blockRange t f.d.toNat) →
    Claims.WritesBlock (e.1 f) s k t
      (Claims.blockRange t f.a.toNat ++ Claims.blockRange t f.b.toNat ++ Claims.blockRange t f.d.toNat) f.d.toNat
      (fun j => e.2 (Claims.maskBit t f.a j) (Claims.maskBit t f.b j))

/-- R116: MNOT, MCPY, MSET and MCLR write their block; MPOPC counts the set mask bits and MFFS names the lowest one. -/
def Sys2Proof.Claims.MaskFunctionResults : Prop :=
  ∀ (f : FS) (s : State) (k : Nat) (t : Team), Claims.legalLanes t → f.d.toNat < 64 →
    (Claims.blockFits t f.a → Claims.blockFits t f.d →
      s.CanIssueScalar k t (Claims.blockRange t f.a.toNat ++ Claims.blockRange t f.d.toNat) →
      Claims.WritesBlock (.mnot f) s k t (Claims.blockRange t f.a.toNat ++ Claims.blockRange t f.d.toNat) f.d.toNat
        (fun j => !Claims.maskBit t f.a j) ∧
      Claims.WritesBlock (.mcpy f) s k t (Claims.blockRange t f.a.toNat ++ Claims.blockRange t f.d.toNat) f.d.toNat
        (Claims.maskBit t f.a)) ∧
    (Claims.blockFits t f.d → s.CanIssueScalar k t (Claims.blockRange t f.d.toNat) →
      Claims.WritesBlock (.mset f) s k t (Claims.blockRange t f.d.toNat) f.d.toNat (fun _ => true) ∧
      Claims.WritesBlock (.mclr f) s k t (Claims.blockRange t f.d.toNat) f.d.toNat (fun _ => false)) ∧
    (Claims.blockFits t f.a → s.CanIssueScalar k t (Claims.blockRange t f.a.toNat ++ [f.d.toNat]) →
      Claims.WritesScalar (.mpopc f) s k t (Claims.blockRange t f.a.toNat ++ [f.d.toNat]) f.d.toNat
        (BitVec.ofNat 64 ((List.range t.lanes).countP (Claims.maskBit t f.a))) ∧
      Claims.WritesScalar (.mffs f) s k t (Claims.blockRange t f.a.toNat ++ [f.d.toNat]) f.d.toNat
        (match (List.range t.lanes).find? (Claims.maskBit t f.a) with
          | some n => BitVec.ofNat 64 n
          | none => 0xFFFFFFFFFFFFFFFF#64))

/-- R115, R116: every mask instruction, on blocks that lie within their files. -/
def Obligations.MaskInstructions : Prop := Claims.MaskBlockCombination ∧ Claims.MaskFunctionResults


/-- R109: a block that would run past s63 or k63 takes the illegal-instruction trap with reason 10. -/
def Obligations.BlockBeyondItsFileTraps : Prop :=
  ∀ (s : State) (k : Nat) (t : Team), Claims.legalLanes t →
    (∀ f : S3, ¬ (Claims.blockFits t f.a ∧ Claims.blockFits t f.b ∧ Claims.blockFits t f.d) →
      s.CanIssue k t (Claims.blockRange t f.a.toNat ++ Claims.blockRange t f.b.toNat ++ Claims.blockRange t f.d.toNat) →
      ∀ i ∈ [Instr.mand f, .mandn f, .mor f, .mxor f], exec i s = .next (s.raise k (t.illegal (wordOf i) 10))) ∧
    (∀ f : FS, ¬ (Claims.blockFits t f.a ∧ Claims.blockFits t f.d) →
      s.CanIssue k t (Claims.blockRange t f.a.toNat ++ Claims.blockRange t f.d.toNat) →
      ∀ i ∈ [Instr.mnot f, .mcpy f], exec i s = .next (s.raise k (t.illegal (wordOf i) 10))) ∧
    (∀ f : FS, ¬ Claims.blockFits t f.d → s.CanIssue k t (Claims.blockRange t f.d.toNat) →
      ∀ i ∈ [Instr.mset f, .mclr f], exec i s = .next (s.raise k (t.illegal (wordOf i) 10))) ∧
    (∀ f : FS, ¬ Claims.blockFits t f.a → s.CanIssue k t (Claims.blockRange t f.a.toNat ++ [f.d.toNat]) →
      ∀ i ∈ [Instr.mpopc f, .mffs f], exec i s = .next (s.raise k (t.illegal (wordOf i) 10))) ∧
    (∀ f : BX, ¬ Claims.blockFits t (f.s.setWidth 7) → s.CanIssue k t (Claims.blockRange t f.s.toNat) →
      ∀ i ∈ [Instr.brzm f, .brnzm f], exec i s = .next (s.raise k (t.illegal (wordOf i) 10)))

/-! ## Control -/

namespace Sys2Proof.Claims

/-- R117's target: (PC + 4 × Sext(OFF18, 18)) mod 2^48. -/
def branchTarget (t : Team) (o : BitVec 18) : Addr := BitVec.ofInt 48 (t.pc.toNat + 4 * o.toInt)

/-- An instruction that writes at most the scalar registers `ds` and goes on at `pc`. -/
def GoesTo (i : Instr) (s : State) (k : Nat) (t : Team) (uses ds : List Nat) (pc : Addr) (link : Option (Nat × W64)) : Prop :=
  ∃ u, exec i s = .next (s.setTeam k u) ∧ s.KeepsRest (s.setTeam k u) k ∧ (t.reading uses).Retired u ds pc ∧
    ∀ e, link = some e → u.sreg e.1 = e.2

end Sys2Proof.Claims

/-- R117: BR, BRZ, BRNZ, BRZM, BRNZM and CALL complete at their target when taken and at the next word otherwise; CALL
leaves the address of the next word in s[S]. -/
def Obligations.BranchTargets : Prop :=
  ∀ (f : BX) (s : State) (k : Nat) (t : Team),
    (s.CanIssueScalar k t [] → Claims.GoesTo (.br f) s k t [] [] (Claims.branchTarget t f.o) none) ∧
    (s.CanIssueScalar k t [f.s.toNat] →
      Claims.GoesTo (.brz f) s k t [f.s.toNat] []
        (if t.sreg f.s.toNat = 0 then Claims.branchTarget t f.o else t.pc + 4) none ∧
      Claims.GoesTo (.brnz f) s k t [f.s.toNat] []
        (if t.sreg f.s.toNat = 0 then t.pc + 4 else Claims.branchTarget t f.o) none ∧
      Claims.GoesTo (.call f) s k t [f.s.toNat] [f.s.toNat] (Claims.branchTarget t f.o)
        (some (f.s.toNat, (t.pc + 4).setWidth 64))) ∧
    (Claims.legalLanes t → Claims.blockFits t (f.s.setWidth 7) → s.CanIssueScalar k t (Claims.blockRange t f.s.toNat) →
      Claims.GoesTo (.brzm f) s k t (Claims.blockRange t f.s.toNat) []
        (if ∀ j, j < t.lanes → Claims.blockBit t f.s.toNat j = false then Claims.branchTarget t f.o else t.pc + 4) none ∧
      Claims.GoesTo (.brnzm f) s k t (Claims.blockRange t f.s.toNat) []
        (if ∃ j, j < t.lanes ∧ Claims.blockBit t f.s.toNat j = true then Claims.branchTarget t f.o else t.pc + 4) none)

/-- R118: JMPR, RET and CALLR go to an aligned 48-bit target, CALLR with the link in s[D]; the target is read before D
is written. -/
def Sys2Proof.Claims.RegisterJumpTargets : Prop :=
  ∀ (f : FS) (s : State) (k : Nat) (t : Team), (t.src f.a).toNat < 2 ^ 48 → (t.src f.a).toNat % 4 = 0 →
    (s.CanIssueScalar k t [f.a.toNat] →
      Claims.GoesTo (.jmpr f) s k t [f.a.toNat] [] ((t.src f.a).setWidth 48) none ∧
      Claims.GoesTo (.ret f) s k t [f.a.toNat] [] ((t.src f.a).setWidth 48) none) ∧
    (f.d.toNat < 64 → s.CanIssueScalar k t [f.d.toNat, f.a.toNat] →
      Claims.GoesTo (.callr f) s k t [f.d.toNat, f.a.toNat] [f.d.toNat] ((t.src f.a).setWidth 48)
        (some (f.d.toNat, (t.pc + 4).setWidth 64)))

/-- R118: a target with bits above 47 takes protection, another misaligned one takes misaligned access; TRAPINFO holds the
target and s[D] is not written. -/
def Sys2Proof.Claims.RegisterJumpTraps : Prop :=
  ∀ (f : FS) (s : State) (k : Nat) (t : Team),
    ∀ e ∈ [(Instr.jmpr f, [f.a.toNat]), (.ret f, [f.a.toNat]), (.callr f, [f.d.toNat, f.a.toNat])],
      s.CanIssueScalar k t e.2 →
      (2 ^ 48 ≤ (t.src f.a).toNat →
        exec e.1 s = .next (s.raise k { cause := 0x05, pc := t.pc, info := t.src f.a })) ∧
      ((t.src f.a).toNat < 2 ^ 48 → (t.src f.a).toNat % 4 ≠ 0 →
        exec e.1 s = .next (s.raise k { cause := 0x03, pc := t.pc, info := t.src f.a }))

/-- R118: JMPR, RET and CALLR: targets, and the traps of targets that are not aligned 48-bit addresses. -/
def Obligations.RegisterJumps : Prop := Claims.RegisterJumpTargets ∧ Claims.RegisterJumpTraps

/-! ## Per-lane instructions -/

namespace Sys2Proof.Claims

/-- What a per-lane instruction that works lane by lane does: the scalar fields it reads, its decode-order checks, its
source and destination registers, the registers it releases, and each lane's result with its flags. -/
structure LaneSpec where
  uses : List Nat := []
  checks : Bool
  srcWide : Bool
  dstWide : Bool
  a : Option Nat := none
  b : Option Nat := none
  d : Option Nat := none
  dst : Nat
  gone : List Nat := []
  fn : Nat → Nat → Nat → Nat → Nat × Flags

/-- The guard is well placed and, where ET is consulted, it holds an assigned value (R18, R22). -/
def consults (t : Team) (et : Bool) : Bool := !t.guardBeyond && (!et || t.et.isSome)

/-- RM holds an assigned value, or no float type is in use (R129). -/
def rounds (t : Team) : Bool := !t.isFloat || t.rm.isSome

/-- Fields of pairs are even (R37). -/
def evenIf (wide : Bool) (l : List Nat) : Bool := !wide || l.all (· % 2 == 0)

/-- Vector instructions of two sources under ET. -/
def lanes3 (t : Team) (f : V3) (ok readD : Bool) (el : Nat → Nat → Nat → Nat → Nat × Flags) : LaneSpec :=
  let w := t.ctx.et.wide
  { checks := consults t true && evenIf w [f.d.toNat, f.a.toNat, f.b.toNat] && ok
    srcWide := w, dstWide := w, a := some f.a.toNat, b := some f.b.toNat, d := if readD then some f.d.toNat else none
    dst := f.d.toNat, gone := lastRead f.sv f.l w f.a.toNat ++ lastRead f.sv f.m w f.b.toNat, fn := el }

/-- Element by element under ET (R128). -/
def elements (t : Team) (el : Ctx → Nat → Nat → Nat → Nat × Flags) (_n a b d : Nat) : Nat × Flags :=
  laneFn t.ctx.et (el t.ctx) a b d

/-- Vector instructions of one source under ET. -/
def lanes1 (t : Team) (f : FS) (ok : Bool) (el : Ctx → Nat → Nat × Flags) : LaneSpec :=
  let w := t.ctx.et.wide
  { checks := consults t true && evenIf w [f.d.toNat, f.a.toNat] && ok
    srcWide := w, dstWide := w, a := some f.a.toNat, dst := f.d.toNat, gone := lastRead f.sv f.l w f.a.toNat
    fn := fun _ a _ _ => laneFn t.ctx.et (fun a _ _ => el t.ctx a) a 0 0 }

/-- The VLONG group: float types, with RM and FTZ; `readD` for the dividend of VDIV. -/
def lanesLong (t : Team) (f : FL) (readD : Bool) (el : FFmt → RMode → Bool → Nat → Nat → Nat × Flags) : LaneSpec :=
  { checks := consults t true && t.isFloat && t.rm.isSome
    srcWide := false, dstWide := false, a := some f.a.toNat, d := if readD then some f.d.toNat else none
    dst := f.d.toNat, gone := lastRead f.sv f.l false f.a.toNat
    fn := fun _ a _ d =>
      laneFn t.ctx.et (fun a _ d => el (t.ctx.et.fmt.getD fmtF32) t.ctx.rm t.ctx.ftz d a) a 0 d }

/-- Arithmetic, logic, shifts, VSEL and VFLK (R136 to R138, R142, R143). -/
def laneArith (t : Team) : Instr → Option LaneSpec
  | .vadd f => some (lanes3 t f (rounds t) false (elements t addElem))
  | .vsub f => some (lanes3 t f (rounds t) false (elements t subElem))
  | .vmul f => some (lanes3 t f (rounds t) false (elements t mulElem))
  | .vmulh f => some (lanes3 t f (!t.isFloat) false (elements t mulhElem))
  | .vfma f => some (lanes3 t f (rounds t) true (elements t fmaElem))
  | .vfms f => some (lanes3 t f (rounds t) true (elements t fmsElem))
  | .vmin f => some (lanes3 t f true false (elements t (minMaxElem false)))
  | .vmax f => some (lanes3 t f true false (elements t (minMaxElem true)))
  | .vand f => some (lanes3 t f true false (elements t fun _ a b _ => (a &&& b, 0)))
  | .vor f => some (lanes3 t f true false (elements t fun _ a b _ => (a ||| b, 0)))
  | .vxor f => some (lanes3 t f true false (elements t fun _ a b _ => (a ^^^ b, 0)))
  | .vandn f => some (lanes3 t f true false (elements t fun _ a b _ => (a ^^^ (a &&& b), 0)))
  | .vshl f => some (lanes3 t f true false (elements t (shiftElem fun _ a n => a <<< n)))
  | .vshr f => some (lanes3 t f true false (elements t (shiftElem fun _ a n => a >>> n)))
  | .vsar f => some (lanes3 t f true false (elements t (shiftElem sarBits)))
  | .vrot f => some (lanes3 t f true false (elements t (shiftElem fun e a n => a <<< n ||| a >>> (e.width - n))))
  | .vsel f => some { lanes3 t f (t.gb + 2 * t.blockRegs ≤ 64) false
      (fun n a b _ => (if (t.maskWord (t.gb + t.blockRegs) (n / 32)).getLsbD (n % 32) then a else b, 0)) with
      uses := t.blockFields (t.gb + t.blockRegs) }
  | .vflk f => some
      { checks := consults t false, srcWide := false, dstWide := false, a := some f.a.toNat, b := some f.b.toNat
        dst := f.d.toNat, gone := lastRead f.sv f.l false f.a.toNat ++ lastRead f.sv f.m false f.b.toNat
        fn := fun _ a b _ => (flickerF32 a b, 0) }
  | _ => none

/-- The VFN group, immediates and broadcasts (R139, R144, R145, R149). -/
def laneFunction (t : Team) : Instr → Option LaneSpec
  | .vmov f => some (lanes1 t f true fun _ a => (a, 0))
  | .vneg f => some (lanes1 t f true negElem)
  | .vabs f => some (lanes1 t f true absElem)
  | .vnot f => some (lanes1 t f true fun x a => (2 ^ x.et.width - 1 - a, 0))
  | .vpopc f => some (lanes1 t f true fun x a => (popCount x.et.width a, 0))
  | .vclz f => some (lanes1 t f true fun x a => (leadZeros x.et.width a, 0))
  | .vbrev f => some (lanes1 t f true fun x a => (revBits x.et.width a, 0))
  | .vflr f => some (lanes1 t f true (intElem fun _ => .rdn))
  | .vceil f => some (lanes1 t f true (intElem fun _ => .rup))
  | .vtrnc f => some (lanes1 t f true (intElem fun _ => .rtz))
  | .vrnd f => some (lanes1 t f (rounds t) (intElem (·.rm)))
  | .vclass f => some (lanes1 t f t.isFloat classElem)
  | .vlane f => some
      { checks := consults t false, srcWide := false, dstWide := false, dst := f.d.toNat, fn := fun n _ _ _ => (n, 0) }
  | .vaddi f => some
      { checks := consults t true && evenIf t.ctx.et.wide [f.d.toNat, f.a.toNat] && rounds t
        srcWide := t.ctx.et.wide, dstWide := t.ctx.et.wide, a := some f.a.toNat, dst := f.d.toNat
        gone := lastRead f.sv f.l t.ctx.et.wide f.a.toNat
        fn := fun _ a _ _ => laneFn t.ctx.et (fun a _ _ => addImmElem f.i t.ctx a) a 0 0 }
  | .vmovi f => some
      { checks := consults t true && evenIf t.ctx.et.wide [f.d.toNat], srcWide := t.ctx.et.wide
        dstWide := t.ctx.et.wide, dst := f.d.toNat, fn := fun _ _ _ _ => ((f.i.signExtend 64).toNat, 0) }
  | .vmovs f => some
      { uses := [f.a.toNat], checks := consults t true && evenIf t.ctx.et.wide [f.d.toNat], srcWide := t.ctx.et.wide
        dstWide := t.ctx.et.wide, dst := f.d.toNat, fn := fun _ _ _ _ => ((t.src f.a).toNat, 0) }
  | _ => none

/-- The VLONG group, conversion and quantisation (R146 to R148, R153, R154). -/
def laneConvert (t : Team) : Instr → Option LaneSpec
  | .vdiv f => some (lanesLong t f true fun g rm z d a => g.fdiv rm z d a)
  | .vrcp f => some (lanesLong t f false fun g rm z _ a => g.flong rm z .rcp a)
  | .vsqrt f => some (lanesLong t f false fun g rm z _ a => g.flong rm z .sqrt a)
  | .vrsq f => some (lanesLong t f false fun g rm z _ a => g.flong rm z .rsq a)
  | .vexp2 f => some (lanesLong t f false fun g rm z _ a => g.flong rm z .exp2 a)
  | .vlog2 f => some (lanesLong t f false fun g rm z _ a => g.flong rm z .log2 a)
  | .vsin f => some (lanesLong t f false fun g rm z _ a => g.flong rm z .sin a)
  | .vcos f => some (lanesLong t f false fun g rm z _ a => g.flong rm z .cos a)
  | .vtanh f => some (lanesLong t f false fun g rm z _ a => g.flong rm z .tanh a)
  | .vsigm f => some (lanesLong t f false fun g rm z _ a => g.flong rm z .sigm a)
  | .vexp f => some (lanesLong t f false fun g rm z _ a => g.flong rm z .exp a)
  | .vlog f => some (lanesLong t f false fun g rm z _ a => g.flong rm z .log a)
  | .vcvt f =>
    let e := (ElemType.ofCode f.t.toNat).getD .i32
    some
      { checks := consults t true && evenIf (t.ctx.et.wide || e.wide) [f.d.toNat, f.a.toNat] &&
          (!(t.isFloat || e.fmt.isSome) || t.rm.isSome)
        srcWide := t.ctx.et.wide, dstWide := e.wide, a := some f.a.toNat, dst := f.d.toNat
        gone := lastRead f.sv f.l t.ctx.et.wide f.a.toNat
        fn := fun _ a _ _ => cvtLane t.ctx.et e t.ctx.rm t.ctx.ftz f.s a }
  | .vqnt f => some
      { uses := [f.b.toNat], checks := consults t false, srcWide := false, dstWide := false, a := some f.a.toNat
        dst := f.d.toNat
        fn := fun n a _ _ =>
          (NFmt.ofCode f.f.toNat).quantise (fmtF32.read t.ftz a) (laneIndex (t.src f.b) n) t.fkey }
  | .vdqnt f => some
      { uses := [f.b.toNat], checks := consults t false, srcWide := false, dstWide := false, a := some f.a.toNat
        dst := f.d.toNat
        fn := fun n a _ _ =>
          let g := NFmt.ofCode f.f.toNat
          ((fmtF32.round .rne (g.reconVal (a % 2 ^ g.bits) (laneIndex (t.src f.b) n) t.fkey)).1, 0) }
  | _ => none

/-- The scalar fields of an instruction, the guard block among them (R16). -/
def LaneSpec.all (L : LaneSpec) (t : Team) : List Nat := L.uses ++ t.guardRegs

/-- The passes of the instruction. -/
def LaneSpec.lanes (L : LaneSpec) : Lanes := laneOp L.srcWide L.dstWide L.a L.b L.d L.dst L.gone L.fn

/-- Lane `b` of word `w`: its result. -/
def LaneSpec.result (L : LaneSpec) (t : Team) (w b : Nat) : Nat × Flags :=
  L.fn (32 * w + b) (t.source L.srcWide L.a w b) (t.source L.srcWide L.b w b) (t.source L.srcWide L.d w b)

/-- What the instruction leaves: every active lane of an issued word has its result in the destination, computed from the
sources as they stood; every other lane, row and register stands as before, but for the rows released. FPFLAGS take the
flags of the passes made here and of those made before an interruption. -/
def LaneSpec.Effect (L : LaneSpec) (t u : Team) : Prop :=
  (∀ w b, w < 32 → b < 32 → t.lanesIn w b →
    u.elem L.dstWide L.dst w b = (L.result t w b).1 % 2 ^ (if L.dstWide then 64 else 32)) ∧
  (∀ w b, w < 32 → b < 32 → ¬ t.lanesIn w b → u.elem L.dstWide L.dst w b = t.elem L.dstWide L.dst w b) ∧
  (∀ r w, w < 32 → r ∉ pairOf L.dstWide L.dst →
    (r ∈ L.gone → t.issues w → u.row r w = none) ∧ (¬ (r ∈ L.gone ∧ t.issues w) → u.row r w = t.row r w)) ∧
  (∀ j, u.fpflags.getLsbD j =
    (t.fpflags.getLsbD j || (raisedAll t.prog.ev).getLsbD j ||
      t.issued.any fun e => (activeBits e.2).any fun b => (L.result t e.1 b).2.getLsbD j)) ∧
  t.SameButRows u []

/-- A lane instruction in a team that passes its checks and traps on no exception completes with its effect. -/
def LanesComplete (i : Instr) (L : LaneSpec) (s : State) (k : Nat) (t : Team) : Prop :=
  s.CanIssue k t (L.all t) → legalLanes t → L.checks = true → t.te = 0 →
    L.lanes.Clear s t.issued (t.entering (L.all t) t.issued) →
    ∃ u, exec i s = .next (s.setTeam k u) ∧ s.KeepsRest (s.setTeam k u) k ∧ L.Effect (t.entering (L.all t) t.issued) u ∧
      u.pc = t.pc + 4 ∧ u.retired = t.retiredNext

end Sys2Proof.Claims

/-- VADD, VSUB, VMUL, VMULH, VFMA, VFMS, VMIN, VMAX, VAND, VOR, VXOR, VANDN, VSHL, VSHR, VSAR, VROT, VSEL and VFLK
complete lane by lane (R127, R136 to R138, R142, R143): active lanes take the element result, all else stands. -/
def Sys2Proof.Claims.VectorArithmeticByLane : Prop :=
  ∀ (i : Instr) (s : State) (k : Nat) (t : Team) (L : Claims.LaneSpec), Claims.laneArith t i = some L →
    Claims.LanesComplete i L s k t

/-- VMOV, VNEG, VABS, VNOT, VPOPC, VCLZ, VBREV, VFLR, VCEIL, VTRNC, VRND, VCLASS, VLANE, VADDI, VMOVI and VMOVS
complete lane by lane (R127, R139, R144, R145, R149). -/
def Sys2Proof.Claims.VectorFunctionsByLane : Prop :=
  ∀ (i : Instr) (s : State) (k : Nat) (t : Team) (L : Claims.LaneSpec), Claims.laneFunction t i = some L →
    Claims.LanesComplete i L s k t

/-- VDIV, VRCP, VSQRT, VRSQ, VEXP2, VLOG2, VSIN, VCOS, VTANH, VSIGM, VEXP, VLOG, VCVT, VQNT and VDQNT complete lane by
lane (R127, R146 to R148, R153, R154). -/
def Sys2Proof.Claims.VectorConversionsByLane : Prop :=
  ∀ (i : Instr) (s : State) (k : Nat) (t : Team) (L : Claims.LaneSpec), Claims.laneConvert t i = some L →
    Claims.LanesComplete i L s k t

/-- R127, R136 to R139, R142 to R149, R153, R154: every per-lane arithmetic, function, conversion and quantisation instruction completes
lane by lane. -/
def Obligations.VectorInstructionsByLane : Prop := Claims.VectorArithmeticByLane ∧ Claims.VectorFunctionsByLane ∧ Claims.VectorConversionsByLane

namespace Sys2Proof.Claims

/-- The instruction begins or resumes as team `t'`, which its passes leave as `u`: rows, error marks and scalar registers
apart, the team stands; its place is the next word. -/
def LanesRetired (i : Instr) (s : State) (k : Nat) (t t' u : Team) (ds : List Nat) : Prop :=
  exec i s = .next (s.setTeam k u) ∧ s.KeepsRest (s.setTeam k u) k ∧ t'.SameButRows u ds ∧
    u.pc = t.pc + 4 ∧ u.retired = t.retiredNext

/-- The rows of the registers `gone` are released in every issued word, and every other row stands. -/
def Releases (t u : Team) (gone : List Nat) : Prop :=
  ∀ r w, w < 32 → (r ∈ gone → t.issues w → u.row r w = none) ∧ (¬ (r ∈ gone ∧ t.issues w) → u.row r w = t.row r w)

/-- Flag `j` is among those raised by the active lanes of the issued words, or by passes made before an interruption. -/
def flagsOr (t u : Team) (fl : Nat → Nat → Flags) : Prop :=
  ∀ j, u.fpflags.getLsbD j =
    (t.fpflags.getLsbD j || (raisedAll t.prog.ev).getLsbD j || t.issued.any fun e => (activeBits e.2).any fun b => (fl e.1 b).getLsbD j)

/-- Rows other than the active lanes of the destination stand, but for those of `gone` in the issued words, and those of
`late` in these and in the words whose passes were made before an interruption. -/
def RowsElsewhere (t u : Team) (wide : Bool) (d : Nat) (gone late : List Nat) : Prop :=
  (∀ w b, w < 32 → b < 32 → ¬ t.lanesIn w b → u.elem wide d w b = t.elem wide d w b) ∧
  ∀ r w, w < 32 → r ∉ pairOf wide d →
    let drop := (r ∈ gone ++ late ∧ t.issues w) ∨ (r ∈ late ∧ w < t.words ∧ w ∈ t.prog.words.map (·.1))
    (drop → u.row r w = none) ∧ (¬ drop → u.row r w = t.row r w)

end Sys2Proof.Claims

/-- R140: VCMP completes with the condition of each active lane in its bit of Block(D), both elements' under a two-element
type; every other bit of every scalar register stands. -/
def Obligations.VectorCompareBits : Prop :=
  ∀ (f : CS) (s : State) (k : Nat) (t : Team), Claims.legalLanes t → f.d.toNat < 64 → Claims.blockFits t f.d →
    Claims.consults t true = true → Claims.evenIf t.ctx.et.wide [f.a.toNat, f.b.toNat] = true → t.te = 0 →
    s.CanIssue k t (Claims.blockRange t f.d.toNat ++ t.guardRegs) →
    let t' := t.entering (Claims.blockRange t f.d.toNat ++ t.guardRegs) t.issued
    (cmpLanes f t).Clear s t.issued t' →
    let cond (w b : Nat) : Bool × Flags :=
      laneCond t.ctx f.c (t.elem t.ctx.et.wide f.a.toNat w b) (t.elem t.ctx.et.wide f.b.toNat w b)
    ∃ u, Claims.LanesRetired (.vcmp f) s k t t' u (Claims.blockRange t f.d.toNat) ∧
      (∀ w b, w < 32 → b < 32 → t.lanesIn w b → Claims.blockBit u f.d.toNat (32 * w + b) = (cond w b).1) ∧
      (∀ n m, n < 64 → m < 64 →
        (¬ ∃ w b, w < 32 ∧ b < 32 ∧ t.lanesIn w b ∧ n = f.d.toNat + (32 * w + b) / 64 ∧ m = (32 * w + b) % 64) →
        (u.sreg n).getLsbD m = (t.sreg n).getLsbD m) ∧
      u.rows = t.rows ∧ Claims.flagsOr t' u fun w b => (cond w b).2

/-- R150: VGETS completes with the element of lane b mod L in s[D], extended by its type, where that lane is active, and
without effect where it is not; R151: VSHFL and VBFLY complete with each active lane holding the element of its source
lane as it stood before the instruction, also where passes made before an interruption have overwritten it. That those elements
are kept over an interruption, and that a B row which is also a row of A goes after the last pass, is the model's reading
(log 31). No exception is enabled (TE 0). -/
def Obligations.VectorLaneMovement : Prop :=
  ∀ (f : V3) (s : State) (k : Nat) (t : Team), Claims.legalLanes t → Claims.consults t true = true → t.te = 0 →
    (f.d.toNat < 64 → Claims.evenIf t.ctx.et.wide [f.a.toNat] = true →
      s.CanIssue k t ([f.d.toNat, f.b.toNat] ++ t.guardRegs) →
      let t' := t.entering ([f.d.toNat, f.b.toNat] ++ t.guardRegs) (getsWords f t)
      (getsLanes f t).Clear s (getsWords f t) t' →
      let n := (t.src f.b).toNat % t.lanes
      ∃ u, Claims.LanesRetired (.vgets f) s k t t' u [f.d.toNat] ∧
        (t.lanesIn (n / 32) (n % 32) →
          u.sreg f.d.toNat = extend t.ctx.et (t.elem t.ctx.et.wide f.a.toNat (n / 32) (n % 32)) ∧
          ∀ r w, w < 32 → u.row r w =
            if r ∈ lastRead f.sv f.l t.ctx.et.wide f.a.toNat ∧ w = n / 32 then none else t.row r w) ∧
        (¬ t.lanesIn (n / 32) (n % 32) → u.sreg f.d.toNat = t.sreg f.d.toNat ∧ u.rows = t.rows)) ∧
    (Claims.evenIf t.ctx.et.wide [f.d.toNat, f.a.toNat, f.b.toNat] = true → s.CanIssue k t t.guardRegs →
      let t' := t.entering t.guardRegs t.issued
      (exchangeLanes f true (shflLane f) t).Clear s t.issued t' →
      ∃ u, Claims.LanesRetired (.vshfl f) s k t t' u [] ∧
        Claims.RowsElsewhere t' u t.ctx.et.wide f.d.toNat (lastRead f.sv f.m false f.b.toNat)
          (lastRead f.sv f.l t.ctx.et.wide f.a.toNat ++
            (lastRead f.sv f.m false f.b.toNat).filter (pairOf t.ctx.et.wide f.a.toNat).contains) ∧
        ∀ w b, w < 32 → b < 32 → t.lanesIn w b →
          let j := t.elem false f.b.toNat w b % t.lanes
          u.elem t.ctx.et.wide f.d.toNat w b = t'.elemBefore t.ctx.et.wide f.a.toNat (j / 32) (j % 32)) ∧
    (Claims.evenIf t.ctx.et.wide [f.d.toNat, f.a.toNat] = true → s.CanIssue k t ([f.b.toNat] ++ t.guardRegs) →
      let t' := t.entering ([f.b.toNat] ++ t.guardRegs) t.issued
      (exchangeLanes f false (bflyLane f) t).Clear s t.issued t' →
      ∃ u, Claims.LanesRetired (.vbfly f) s k t t' u [] ∧
        Claims.RowsElsewhere t' u t.ctx.et.wide f.d.toNat [] (lastRead f.sv f.l t.ctx.et.wide f.a.toNat) ∧
        ∀ w b, w < 32 → b < 32 → t.lanesIn w b →
          let j := (32 * w + b) ^^^ ((t.src f.b).toNat % t.lanes)
          u.elem t.ctx.et.wide f.d.toNat w b = t'.elemBefore t.ctx.et.wide f.a.toNat (j / 32) (j % 32)) ∧
    ∀ (uses : List Nat) (words : List (Nat × W32)) (wide : Bool) (r w b : Nat), t.pass = 0 ∨ t.prog.pc ≠ t.pc →
      (t.entering uses words).elemBefore wide r w b = t.elem wide r w b

namespace Sys2Proof.Claims

/-- VREDW by operation, with whether it rounds under RM. -/
def reductions : List ((FS → Instr) × Bool × (Ctx → Nat → Nat → Nat → Nat × Flags)) :=
  [(.vredwAdd, true, addElem), (.vredwMin, false, minMaxElem false), (.vredwMax, false, minMaxElem true),
   (.vredwAnd, false, bitElem (· &&& ·)), (.vredwOr, false, bitElem (· ||| ·)), (.vredwXor, false, bitElem (· ^^^ ·))]

end Sys2Proof.Claims

/-- R152: VREDW.ADD, MIN, MAX, AND, OR and XOR complete with the value of the fold over the issued words in s[D],
extended by its type, after an interruption from the value that the passes made before it left; with no issued word
s[D] stands; A's rows are released where its last-read flag says so. That the fold's value is kept over an interruption is the
model's reading (log 31). No exception is enabled (TE 0). -/
def Obligations.VectorReductionCompletes : Prop :=
  ∀ e ∈ Claims.reductions, ∀ (f : FS) (s : State) (k : Nat) (t : Team), Claims.legalLanes t → f.d.toNat < 64 →
    Claims.consults t true = true → Claims.evenIf t.ctx.et.wide [f.a.toNat] = true →
    (e.2.1 = true → Claims.rounds t = true) → t.te = 0 → s.CanIssue k t ([f.d.toNat] ++ t.guardRegs) →
    let t' := t.entering ([f.d.toNat] ++ t.guardRegs) t.issued
    (reduceLanes f e.2.2 t).Clear s t.issued t' →
    ∃ u, Claims.LanesRetired (e.1 f) s k t t' u [f.d.toNat] ∧
      u.sreg f.d.toNat =
        (match (redWords (redOp t e.2.2) t t.ctx.et.wide f.a.toNat t.issued t'.prog.acc).1 with
          | none => t.sreg f.d.toNat
          | some (v, _) => extend t.ctx.et v) ∧
      Claims.Releases t u (lastRead f.sv f.l t.ctx.et.wide f.a.toNat)

/-- R130: an integer sum, difference or product is exact and then fitted: modulo 2^w, or clamped to the range of the type
under SAT; it raises no flag. -/
def Obligations.IntegerElementsAreFitted : Prop :=
  ∀ (x : Ctx) (a b : Nat), x.et.fmt = none →
    ∀ e ∈ [(addElem x a b 0, x.et.int a + x.et.int b), (subElem x a b 0, x.et.int a - x.et.int b),
           (mulElem x a b 0, x.et.int a * x.et.int b)],
      e.1.2 = 0 ∧ e.1.1 < 2 ^ x.et.width ∧
      (x.sat = false → ((e.1.1 : Int) - e.2) % 2 ^ x.et.width = 0) ∧
      (x.sat = true → x.et.int e.1.1 = max x.et.lo (min x.et.hi e.2))

/-- R36: an issued pass that reads a register with no mapping for its word takes the trap of cause 0x02, with the
pass, the lane 32w and the register in its record; here at the first issued pass, before anything of the instruction
is done. Of several unmapped registers the record names the first in the order A, B, D: this model's choice (log 89). -/
def Obligations.UnmappedReadTraps : Prop :=
  ∀ (i : Instr) (s : State) (k : Nat) (t : Team) (L : Claims.LaneSpec) (w r : Nat) (eff : W32)
    (rest : List (Nat × W32)),
    Claims.laneArith t i = some L ∨ Claims.laneFunction t i = some L ∨ Claims.laneConvert t i = some L →
    s.CanIssue k t (L.all t) → L.checks = true → t.issued = (w, eff) :: rest → s.checkFires t w = none →
    L.lanes.reads.find? (fun r => (t.row r w).isNone) = some r →
    let t' := t.entering (L.all t) t.issued
    exec i s = .next ((s.setTeam k { t.raising t'.prog.ev with
        pass := w
        fpflags := t.fpflags ||| (raisedAll t'.prog.ev).setWidth 32, prog := { t.prog with ev := [] } }).raise k
      { cause := 0x02, pc := t.pc, pass := w, lane := 32 * w, info := BitVec.ofNat 64 r })

/-- R132, R133: an instruction whose window raised an enabled class first completes, with FPFLAGS updated, and then
takes the floating-point trap: the highest-priority enabled class in TRAPINFO[4:0], every class raised in [12:8], the
earliest pass and lowest lane that raised the reported class. -/
def Obligations.EnabledExceptionTraps : Prop :=
  ∀ (s : State) (k : Nat) (t : Team) (ev : List Raised), raisedAll ev &&& t.te ≠ 0 →
    ∃ r : TrapRec, s.complete k t ev = .next ((s.setTeam k { t with
        fpflags := t.fpflags ||| (raisedAll ev).setWidth 32, prog := {} }).raise k r) ∧
      r.cause = 0x06 ∧ r.done = true ∧ r.pc = t.pc ∧
      (∃ c : Nat, c < 5 ∧ (raisedAll ev &&& t.te).getLsbD c = true ∧
        (∀ j, j < c → (raisedAll ev &&& t.te).getLsbD j = false) ∧
        r.info = (1#64 <<< c) ||| ((raisedAll ev).setWidth 64 <<< 8) ∧
        (∃ e ∈ ev, e.fl.getLsbD c = true ∧ e.w = r.pass ∧ e.lane = r.lane ∧
          ∀ e' ∈ ev, e'.fl.getLsbD c = true → r.pass < e'.w ∨ (r.pass = e'.w ∧ r.lane ≤ e'.lane)))

/-! ## Memory accesses -/

namespace Sys2Proof.Claims

/-- The effective address of a scalar access (R157). -/
def scalarEA (t : Team) (f : MS) : W64 := t.sreg f.s.toNat + t.src f.a

/-- The path of an access has room, or its operation has begun (R169, R170). -/
abbrev pathReady (t : Team) (p : Fin 8) : Prop := t.openOp.isSome = true ∨ t.counter p < 255

/-- Byte `i` of a doubleword, the least significant first. -/
def byteOf (v : W64) (i : Nat) : Byte := v.extractLsb' (8 * i) 8

/-- A retired access in state `s'`, team `u`, that wrote no more than the registers `ds`. -/
def AccessRetired (i : Instr) (s s' : State) (k : Nat) (t u : Team) (ds : List Nat) (p : Fin 8) : Prop :=
  exec i s = .next s' ∧ s'.team k = some u ∧ s.KeepsMemory s' k ∧ t.SameButAccess u ds ∧ t.CountsAccess u p

/-- The bytes of a doubleword at `loc` are those of `v`, as the team reads memory after `s'`; every other byte it reads as
before. -/
def StoresDouble (s s' : State) (t u : Team) (loc : Loc) (v : W64) : Prop :=
  (∀ i, i < 8 → s'.teamByte u (loc.add i) = byteOf v i) ∧
  ∀ l, (∀ i, i < 8 → l ≠ loc.add i) → s'.teamByte u l = s.teamByte t l

/-- Room for the stores of an instruction: in the team's private buffer under DET, else in the core's queue, with the line
held for no other team (R188, R242, R363; that a store waits for a hold at its check is this model's reading, log 92). -/
def storeRoom (s : State) (k : Nat) (t : Team) (loc : Loc) : Prop :=
  if t.buffers = true then t.overflows [loc] = false
  else (s.core t.core.toNat).queueRoom 1 = true ∧ s.heldFrom k loc = false

end Sys2Proof.Claims

/-- R157, R164, R165: SLD and SLDACQ complete with the eight bytes at EA in s[D], little-endian, as the team reads memory:
its own earlier stores first. -/
def Obligations.ScalarLoadResult : Prop :=
  ∀ (f : MS) (s : State) (k : Nat) (t : Team) (loc : Loc) (page : Option Page),
    s.CanIssueScalar k t [f.d.toNat, f.a.toNat, f.s.toNat] →
    Claims.pathReady t (s.pathOf t false pathLDG [Claims.scalarEA t f]) →
    s.Grants k t false .load 8 (Claims.scalarEA t f) loc page →
    ∀ i ∈ [Instr.sld f, .sldacq f], ∃ s' u,
      Claims.AccessRetired i s s' k t u [f.d.toNat] (s.pathOf t false pathLDG [Claims.scalarEA t f]) ∧
      s'.cores = s.cores ∧ u.buf = t.buf ∧
      ∀ n, n < 8 → Claims.byteOf (u.sreg f.d.toNat) n = s.teamByte t (loc.add n)

/-- R157, R164, R165, R188, R363: SST and SSTREL complete with the eight bytes of s[D] stored at EA, little-endian,
into the checked store queue or, under DET, the private buffer: the team reads them back at once, and every other byte
and all of coherent memory stand; the core's cache region takes the line, which leaves the caches of other cores
(R188, R383). SSTREL goes when the team's earlier accesses are released (R227). -/
def Obligations.ScalarStoreResult : Prop :=
  ∀ (f : MS) (s : State) (k : Nat) (t : Team) (loc : Loc) (page : Option Page),
    s.CanIssueScalar k t [f.d.toNat, f.a.toNat, f.s.toNat] →
    Claims.pathReady t (s.pathOf t false pathSTG [Claims.scalarEA t f]) →
    s.Grants k t false .store 8 (Claims.scalarEA t f) loc page → loc.inLine % 8 = 0 → Claims.storeRoom s k t loc →
    ∀ i ∈ [Instr.sst f, .sstrel f], (i = .sstrel f → s.released k t = true) → ∃ s' u,
      Claims.AccessRetired i s s' k t u [] (s.pathOf t false pathSTG [Claims.scalarEA t f]) ∧
      Claims.StoresDouble s s' t u loc (t.sreg f.d.toNat) ∧
      (t.buffers = true → s'.cores = s.cores) ∧
      (t.buffers = false → ∀ c,
        s'.core c = { s.core c with
          queue := (s'.core c).queue, entered := (s'.core c).entered, l1 := (s'.core c).l1, ckc := (s'.core c).ckc } ∧
        (c ≠ t.core.toNat → (s'.core c).queue = (s.core c).queue ∧ (s'.core c).entered = (s.core c).entered))

/-- R157, R160: an access that is misaligned for its size takes cause 0x03, whatever else is wrong with it, and an aligned
one with EA[63:48] not 0 cause 0x05; TRAPINFO holds the effective address. -/
def Obligations.ScalarAccessTraps : Prop :=
  ∀ (f : MS) (s : State) (k : Nat) (t : Team),
    s.CanIssueScalar k t [f.d.toNat, f.a.toNat, f.s.toNat] → t.openOp = none →
    let ea := Claims.scalarEA t f
    ∀ e ∈ [(Instr.sld f, pathLDG), (.sldacq f, pathLDG), (.sst f, pathSTG), (.sstrel f, pathSTG)],
      Claims.pathReady t (s.pathOf t false e.2 [ea]) → (e.1 = .sstrel f → s.released k t = true) →
      ∀ c : BitVec 8, ((ea.toNat % 8 ≠ 0 ∧ c = 0x03) ∨ (ea.toNat % 8 = 0 ∧ 2 ^ 48 ≤ ea.toNat ∧ c = 0x05)) →
        ∃ (s₁ : State) (t₁ : Team), exec e.1 s = .next (s₁.raise k { cause := c, pc := t.pc, info := ea, waitOnly := t.waitOnly }) ∧
          s₁.team k = some t₁ ∧ (∀ n, t₁.sreg n = t.sreg n) ∧ t₁.rows = t.rows ∧ t₁.pc = t.pc ∧
          (∀ l, s₁.readLoc l = s.readLoc l) ∧ s₁.cores = s.cores

namespace Sys2Proof.Claims

/-- The vector loads: whether the access is local, and its width in bytes (R155, R156). -/
def vectorLoads : List ((MV → Instr) × Bool × Nat) :=
  [(.vld, false, 4), (.vldb, false, 1), (.vldh, false, 2), (.vldd, false, 8), (.vldl, true, 4), (.vldlb, true, 1)]

/-- The vector stores, likewise. -/
def vectorStores : List ((MV → Instr) × Bool × Nat) :=
  [(.vst, false, 4), (.vstb, false, 1), (.vsth, false, 2), (.vstd, false, 8), (.vstl, true, 4), (.vstlb, true, 1)]

/-- The effective address of lane `b` of word `w`: the base plus the sign-extended offset (R157, R158). -/
def laneEA (t : Team) (f : MV) (w b : Nat) : W64 :=
  t.sreg f.s.toNat + (BitVec.ofNat 32 (t.elem false f.a.toNat w b)).signExtend 64

/-- What the active lanes of the issued words hold, in ascending order. -/
def overLanes {α : Type} (t : Team) (g : Nat → Nat → α) : List α :=
  t.issued.flatMap fun e => (activeBits e.2).map fun b => g e.1 b

/-- The lanes' accesses are ordinary ones: local, or outside a transaction (R237). -/
abbrev ordinary (t : Team) (local_ : Bool) : Prop := local_ = true ∨ t.txstat.active = false

/-- Pass by pass, the lanes of a load may be performed at `loc`, and the destination finds its rows (R38). -/
def loadsReady (k : Nat) (f : MV) (local_ : Bool) (width : Nat) (loc : Nat → Nat → Loc)
    (page : Nat → Nat → Option Page) : List (Nat × W32) → State → Team → Prop
  | [], _, _ => True
  | (w, eff) :: rest, s, t =>
    s.checkFires t w = none ∧ t.readable [f.a.toNat] w = none ∧
      (∀ b, b < 32 → eff.getLsbD b = true →
        s.Grants k t local_ .load width (laneEA t f w b) (loc w b) (page w b)) ∧
      s.roomFor t (pairOf (width == 8) f.d.toNat) [] w = true ∧
      let t' := (s.takeReserve t (t.newRows (pairOf (width == 8) f.d.toNat) w)).putElems (width == 8) f.d.toNat w eff fun b =>
        s.teamRead t (loc w b) width
      loadsReady k f local_ width loc page rest (s.setTeam k t') t'

/-- The lanes of a store may be performed at `loc`, aligned in their lines, from mapped and sound registers. -/
def storesReady (s : State) (k : Nat) (t : Team) (f : MV) (local_ : Bool) (width : Nat) (loc : Nat → Nat → Loc)
    (page : Nat → Nat → Option Page) : Prop :=
  ∀ e ∈ t.issued, s.checkFires t e.1 = none ∧
    t.readable (f.a.toNat :: pairOf (width == 8) f.d.toNat) e.1 = none ∧
    ∀ b, b < 32 → e.2.getLsbD b = true →
      s.Grants k t local_ .store width (laneEA t f e.1 b) (loc e.1 b) (page e.1 b) ∧ (loc e.1 b).inLine % width = 0

/-- Room for a vector store: the private buffer, or a queue entry for every line of every pass, and no line held for another
team (R188, R242, R363; log 92). -/
def storesRoom (s : State) (k : Nat) (t : Team) (loc : Nat → Nat → Loc) : Prop :=
  if t.buffers = true then t.openOp = none → t.overflows (overLanes t loc) = false
  else (∀ l ∈ overLanes t loc, s.heldFrom k l.line = false) ∧ (s.core t.core.toNat).queue.length +
    (t.issued.map fun e => (distinctLines ((activeBits e.2).map fun b => loc e.1 b)).length).sum ≤ 64

/-- `u` is `t` after a vector access that retired: rows with their error marks, its hold of the save reserve, what a
transaction records of rows, and what a scalar access may change. -/
def vectorRetired (i : Instr) (s s' : State) (k : Nat) (t u : Team) (p : Fin 8) : Prop :=
  exec i s = .next s' ∧ s'.team k = some u ∧ s.KeepsMemory s' k ∧ t.CountsAccess u p ∧
    { t with rows := u.rows, rowErr := u.rowErr, reserve := u.reserve
             tx := { t.tx with touched := u.tx.touched } }.SameButAccess u []

end Sys2Proof.Claims

/-- R155 to R158, R161: VLD, VLDB, VLDH, VLDD, VLDL and VLDLB complete with each active lane's little-endian bytes, zero
extended, in its element; inactive lanes, other rows, coherent memory and the store queue stand. -/
def Obligations.VectorLoadsByLane : Prop :=
  ∀ e ∈ Claims.vectorLoads, ∀ (f : MV) (s : State) (k : Nat) (t : Team) (loc : Nat → Nat → Loc)
    (page : Nat → Nat → Option Page),
    Claims.legalLanes t → s.CanIssue k t (f.s.toNat :: t.guardRegs) → t.guardBeyond = false →
    Claims.ordinary t e.2.1 →
    let p := s.pathOf t e.2.1 pathLDG (Claims.overLanes t (Claims.laneEA t f))
    (t.issued ≠ [] → Claims.pathReady t p) →
    Claims.loadsReady k f e.2.1 e.2.2 loc page t.issued s t →
    ∃ s' u, Claims.vectorRetired (e.1 f) s s' k t u p ∧ s'.cores = s.cores ∧ u.buf = t.buf ∧
      Claims.RowsElsewhere t u (e.2.2 == 8) f.d.toNat [] [] ∧
      ∀ w b, w < 32 → b < 32 → t.lanesIn w b →
        u.elem (e.2.2 == 8) f.d.toNat w b = leNat ((List.range e.2.2).map fun n => s.teamByte t ((loc w b).add n))

/-- R155 to R158, R161, R162, R188, R363: VST, VSTB, VSTH, VSTD, VSTL and VSTLB complete with the low bytes of each active
lane's element at its address, little-endian, the highest lane's where lanes overlap; the team reads them back at once,
every other byte it reads and all of coherent memory stand, and no register changes. -/
def Obligations.VectorStoresByLane : Prop :=
  ∀ e ∈ Claims.vectorStores, ∀ (f : MV) (s : State) (k : Nat) (t : Team) (loc : Nat → Nat → Loc)
    (page : Nat → Nat → Option Page),
    Claims.legalLanes t → s.CanIssue k t (f.s.toNat :: t.guardRegs) → t.guardBeyond = false →
    Claims.ordinary t e.2.1 →
    let p := s.pathOf t e.2.1 pathSTG (Claims.overLanes t (Claims.laneEA t f))
    (t.issued ≠ [] → Claims.pathReady t p) →
    Claims.storesReady s k t f e.2.1 e.2.2 loc page → Claims.storesRoom s k t loc →
    ∃ s' u, Claims.vectorRetired (e.1 f) s s' k t u p ∧ u.rows = t.rows ∧ u.rowErr = t.rowErr ∧ u.s = t.s ∧
      (∀ w b n, w < 32 → b < 32 → t.lanesIn w b → n < e.2.2 →
        (∀ w' b' n', t.lanesIn w' b' → b' < 32 → n' < e.2.2 → (loc w' b').add n' = (loc w b).add n →
          32 * w' + b' ≤ 32 * w + b) →
        s'.teamByte u ((loc w b).add n) =
          Claims.byteOf (BitVec.ofNat 64 (t.elem (e.2.2 == 8) f.d.toNat w b)) n) ∧
      (∀ l, (∀ w b n, w < 32 → b < 32 → t.lanesIn w b → n < e.2.2 → l ≠ (loc w b).add n) →
        s'.teamByte u l = s.teamByte t l)

namespace Sys2Proof.Claims

/-- A byte of the address space: a virtual one below 2^48, or one of a scratchpad pool. -/
def realByte : Loc → Prop
  | .virt _ va => va < 2 ^ 48
  | .pool .. => True

/-- The new values of R231 by opcode: what the AMO stores, or nothing. -/
def amoResults : List (W64 → W64 → W64 → Option W64) :=
  [fun old a _ => some (old + a), fun old a _ => some (old &&& a), fun old a _ => some (old ||| a),
   fun old a _ => some (old ^^^ a), fun old a _ => some (BitVec.ofInt 64 (min old.toInt a.toInt)),
   fun old a _ => some (BitVec.ofInt 64 (max old.toInt a.toInt)), fun _ a _ => some a,
   fun old a b => if old = a then some b else none]

/-- The AMOs by opcode. -/
def amos : List (AM → Instr) := [.amoadd, .amoand, .amoor, .amoxor, .amomin, .amomax, .amoswp, .amocas]

/-- The scalar fields of an AMO: D, the base, and D+1 for AMOCAS. -/
def amoFields (n : Nat) (f : AM) : List Nat :=
  (if n = 7 then [f.d.toNat + 1] else []) ++ [f.d.toNat, f.s.toNat]

/-- `u` is `t` after an instruction that started an operation on path `p` and retired: the operation's name is taken, the
counter is one higher, and nothing else changes but its place in the program and what DET events record. -/
def startsOn (t u : Team) (p : Fin 8) : Prop :=
  u = { t with
    paths := u.paths, opSeq := t.opSeq + 1, busy := u.busy, pc := t.pc + 4, pass := 0, waitOnly := false, rowWait := none
    retired := t.retiredNext, inside := false, yielded := u.yielded, park := u.park, detcause := u.detcause
    detlog := u.detlog, prog := u.prog, pipe := u.pipe } ∧
  u.counter p = t.counter p + 1 ∧ (∀ q, q ≠ p → u.counter q = t.counter q) ∧
  (t.launch.det = false → u.detcause = t.detcause ∧ u.detlog = t.detlog)

/-- The reductions: their form from type and A[0] (R167). -/
def reductions' : List ((RD → Instr) × (Bool → BitVec 2)) :=
  [(.redadd, fun t => if t then 1 else 0), (.redadds, fun t => if t then 3 else 2)]

end Sys2Proof.Claims

/-- R230 to R232: an AMO completes at its check: it leaves the core with the address, its operands and its opcode,
path LDG one higher and s[D] awaiting the old value; no register and no byte of memory changes yet. In
this model no later instruction of the team is committed before it is performed (log 22). In user
mode under DET the team parks at it instead, the operation held for the serial phase (R364). -/
def Obligations.AtomicsAreSent : Prop :=
  ∀ (n : Nat) (c : AM → Instr), Claims.amos[n]? = some c → ∀ (f : AM) (s : State) (k : Nat) (t : Team) (loc : Loc)
    (page : Option Page),
    s.CanIssueScalar k t (Claims.amoFields n f) → t.txstat.active = false →
    s.Grants k t false .store 8 (t.sreg f.s.toNat) loc page → s.poisonLoc loc = false → t.counter pathLDG < 255 →
    (f.r = true → s.released k t = true) →
    (t.buffers = false → ∃ u a, exec (c f) s = .next { s.setTeam k u with amos := s.amos ++ [a] } ∧
      a.team = k ∧ a.code.toNat = n ∧ a.d = f.d ∧ a.ea = (t.sreg f.s.toNat).toNat ∧ a.operand = t.sreg f.d.toNat ∧
      a.other = t.sreg (f.d.toNat + 1) ∧ a.seen = t.seen ∧ a.after = (s.core t.core.toNat).standing t.acquired ∧ a.pc = t.pc ∧ a.op = t.opSeq ∧
      Claims.startsOn t u pathLDG ∧ (∀ r, r ∈ u.busy ↔ r ∈ t.busy ∨ r = f.d.toNat)) ∧
    (t.buffers = true → ∃ u, (∃ h, exec (c f) s = .next ((s.setTeam k u).modGrid t.seq fun g =>
        { g with held := g.held ++ [h] }) ∧ h.instr = c f ∧ h.team = t.key ∧ h.clock = t.retired.toNat) ∧
      u = { t.reading (Claims.amoFields n f) with park := some .sync })

/-- AMO_PERFORM completes the `n`-th AMO `a` of team `t` at `loc` in the memory of `s₁`: the new value of its table stands
there, or what stood there for an AMOCAS whose comparison fails; the old value, which in a DET grid the team's own stores
come before, is in s[D], which awaits nothing any more; every other byte and register stands. -/
def Sys2Proof.Claims.AmoDone (n : Nat) (s s₁ : State) (a : Amo) (t : Team) (loc : Loc) : Prop :=
  ∃ s' u, exec (.amoPerform n) s = .next s' ∧ s'.team a.team = some u ∧
    ∃ old : W64, (∀ i, i < 8 → Claims.byteOf old i =
        if t.launch.det = true then (t.buffered (loc.add i)).getD (s₁.readLoc (loc.add i)) else s₁.readLoc (loc.add i)) ∧
      u.sreg a.d.toNat = old ∧ (∀ r, r ≠ a.d.toNat → u.sreg r = t.sreg r) ∧
      (∀ r, r ∈ u.busy ↔ r ∈ t.busy ∧ r ≠ a.d.toNat) ∧ u.rows = t.rows ∧ u.pc = t.pc ∧
      (∀ x, x ∈ s'.amos ↔ x ∈ s.amos ∧ ¬ (x.team = a.team ∧ x.op = a.op)) ∧
      ∃ g, Claims.amoResults[a.code.toNat]? = some g ∧
        (∀ i, i < 8 → s'.readLoc (loc.add i) =
          match g old a.operand a.other with
          | some v => Claims.byteOf v i
          | none => s₁.readLoc (loc.add i)) ∧
        ∀ l, Claims.realByte l → (∀ i, i < 8 → l ≠ loc.add i) → s'.readLoc l = s₁.readLoc l

/-- The AMO is not on its way to a peer, and no store that it must see, or that an acquire orders before it, stands in the
core's queue (R162, R224, R226). -/
abbrev Sys2Proof.Claims.amoMayAct (s : State) (a : Amo) (t : Team) : Prop :=
  a.sent = false ∧ ∀ e ∈ (s.core t.core.toNat).queue, a.after.contains e.n = false ∧ (e.loc = (s.locOf a.tag a.ea).line →
    a.seen.contains e.n = false ∧ (e.team = a.team → a.fork ≤ e.n))

/-- R231, R232: an AMO is performed at its home once its line can be reached there: when a cached line of this module,
under no window, grants the store, is held for no other team and copied by no peer, it is. -/
def Obligations.AtomicsArePerformed : Prop :=
  ∀ (n : Nat) (s : State) (a : Amo) (t : Team), s.amos[n]? = some a → s.team a.team = some t → Claims.amoMayAct s a t →
    (∀ (s₁ : State) (loc : Loc), s.destination a.team a.tag a.ea .store a.user = .here s₁ loc →
      s₁.poisonLoc loc = false → Tab.find s₁.relia.crcNext (t.core.toNat / 64) ≠ some .failed → loc.inLine % 8 = 0 →
      Claims.realByte loc → Claims.AmoDone n s s₁ a t loc) ∧
    (∀ l, s.findWindow a.tag a.ea = none → Tab.find s.lines (lineKey a.tag a.ea) = some l →
      grants l.r l.w l.x l.u .store a.user = true → l.pa / 2 ^ 52 = s.fabric.fmod.toNat →
      s.heldAgainst (some a.team) a.tag a.ea = false → s.planesOf a.tag a.ea = [] →
      s.poisonLoc (.virt a.tag (a.ea % 2 ^ 48)) = false → Tab.find s.relia.crcNext (t.core.toNat / 64) ≠ some .failed →
      a.ea % 8 = 0 → Claims.AmoDone n s s a t (.virt a.tag (a.ea % 2 ^ 48)))

/-- R15, R167, R168: REDADD and REDADDS complete at their check: with no issued pass without effect, in a transaction too;
otherwise the command
leaves the core with its form, its base and every active lane's word in ascending lane, path DRN one higher, and no
byte of memory changes yet. -/
def Sys2Proof.Claims.ReductionsAreSent : Prop :=
  ∀ e ∈ Claims.reductions', ∀ (f : RD) (s : State) (k : Nat) (t : Team) (loc : Nat → Nat → Loc)
    (page : Nat → Nat → Option Page),
    Claims.legalLanes t → s.CanIssueScalar k t (f.s.toNat :: t.guardRegs) → t.guardBeyond = false →
    (t.issued ≠ [] → t.txstat.active = false ∧ t.counter pathDRN < 255) →
    let form := e.2 f.t
    let base := t.sreg f.s.toNat
    (∀ p ∈ t.issued, t.readable [f.d.toNat] p.1 = none ∧ ∀ b, b < 32 → p.2.getLsbD b = true →
      s.Grants k t false .store (if form = 3 then 8 else 4)
        (if form.toNat < 2 then base + BitVec.ofNat 64 (4 * (32 * p.1 + b)) else base) (loc p.1 b) (page p.1 b)) →
    (t.issued = [] → ∃ u, exec (e.1 f) s = .next (s.setTeam k u) ∧ t.Retired u [] (t.pc + 4)) ∧
    (t.issued ≠ [] → ∃ (u : Team) (r : RedCmd),
      (t.buffers = false → exec (e.1 f) s = .next ({ s with reds := s.reds ++ [r] }.setTeam k u)) ∧
      (t.buffers = true → ∃ h, h.cmd = .red r ∧ h.clock = t.retired.toNat ∧
        exec (e.1 f) s = .next ((s.modGrid t.seq fun g => { g with held := g.held ++ [h] }).setTeam k u)) ∧
      r.team = k ∧ r.form = form ∧ r.base = base.toNat ∧ r.op = t.opSeq ∧ r.acted = false ∧
      r.lanes = Claims.overLanes t (fun w b => (32 * w + b, BitVec.ofNat 32 (t.elem false f.d.toNat w b))) ∧
      Claims.startsOn t u pathDRN ∧ u.busy = t.busy)

/-- R167: the addends of a reduction: binary32 sums round to nearest even, the integer forms add modulo 2^32, or modulo
2^64 a sign-extended word, and raise no flag. -/
def Sys2Proof.Claims.ReductionAddends : Prop :=
  ∀ (old : Nat) (d : W32),
    (old < 2 ^ 32 → (redStep 1 old d).1 = (old + d.toNat) % 2 ^ 32) ∧
    (old < 2 ^ 64 → (((redStep 3 old d).1 : Int) - old - d.toInt) % 2 ^ 64 = 0 ∧ (redStep 3 old d).1 < 2 ^ 64) ∧
    (redStep 1 old d).2 = 0 ∧ (redStep 3 old d).2 = 0 ∧
    redStep 0 old d = redStep 2 old d ∧ redStep 0 old d = fmtF32.fadd .rne false old d.toNat

/-- R167, R168: REDADD and REDADDS at their check, and the addends they apply. -/
def Obligations.ReductionsLeaveAndAdd : Prop := Claims.ReductionsAreSent ∧ Claims.ReductionAddends


/-- R166: CPREF and CPREFL2 complete whatever the address is, and change no register and no byte that is present; a line
they bring in is clean. -/
def Sys2Proof.Claims.PrefetchesComplete : Prop :=
  ∀ (f : CA) (s : State) (k : Nat) (t : Team), s.CanIssueScalar k t [f.a.toNat, f.s.toNat] →
    ∀ i ∈ [Instr.cpref f, .cprefl2 f], ∃ s' u, exec i s = .next s' ∧ s'.team k = some u ∧
      (t.reading [f.a.toNat, f.s.toNat]).Retired u [] (t.pc + 4) ∧
      (∀ j, j ≠ k → s'.team j = s.team j) ∧ s'.gangs = s.gangs ∧
      (∀ c, s'.core c = { s.core c with l1 := (s'.core c).l1, ckc := (s'.core c).ckc }) ∧
      (i = .cprefl2 f → s'.cores = s.cores) ∧
      (s.relia.mcbase.getLsbD 0 = false → s'.phys = s.phys) ∧
      (∀ g grp off, s'.readLoc (.pool g grp off) = s.readLoc (.pool g grp off)) ∧
      (∀ tag va, (Tab.find s.lines (lineKey tag va)).isSome = true →
        s'.readLoc (.virt tag va) = s.readLoc (.virt tag va) ∧
        Tab.find s'.lines (lineKey tag va) = Tab.find s.lines (lineKey tag va)) ∧
      ∀ key l, Tab.find s.lines key = none → Tab.find s'.lines key = some l → l.dirty = false

/-- R166: CFLUSH and CINV of a cached line complete once the team's stores and AMOs to it are performed and no peer
holds a copy: a dirty line's bytes are then in its home memory, CFLUSH keeps the line, clean, and CINV keeps no copy. The
team reads every byte as before, after CINV every byte outside the line. -/
def Sys2Proof.Claims.CacheLinesGoHome : Prop :=
  ∀ (f : CA) (s : State) (k : Nat) (t : Team) (l : Line), s.MemoryWf →
    s.CanIssueScalar k t [f.a.toNat, f.s.toNat] → t.txstat.active = false →
    let ea := t.sreg f.s.toNat + t.src f.a
    let tag := tagOf (t.asid.setWidth 16) ea.toNat
    Claims.pathReady t (s.pathOf t false pathSTG [ea]) → ea.toNat < 2 ^ 48 → s.findWindow tag ea.toNat = none →
    Tab.find s.lines (lineKey tag ea.toNat) = some l → grants l.r l.w l.x l.u .load (!t.sys) = true →
    s.lineDrained k t (.virt tag (ea.toNat / 128 * 128)) = true → s.planesOf tag ea.toNat = [] →
    (l.c = false ∨ s.relia.mcbase.getLsbD 0 = false) →
    (∀ i, i < 4 → s.offlineAt (l.pa % 2 ^ 52 / 32 + i) = false) → l.pa % 128 = 0 →
    ∀ e ∈ [(Instr.cflush f, true), (.cinv f, false)], ∃ s' u, exec e.1 s = .next s' ∧ s'.team k = some u ∧
      t.SameButAccess u [] ∧ (∀ j, j ≠ k → s'.team j = s.team j) ∧ s'.gangs = s.gangs ∧
      (∀ n, n < 128 → Memory.read s'.phys (l.pa % 2 ^ 52 + n) =
        if l.dirty = true then Memory.read s.vmem (lineKey tag ea.toNat * 128 + n) else Memory.read s.phys (l.pa % 2 ^ 52 + n)) ∧
      (∀ a, ¬ (l.pa % 2 ^ 52 ≤ a ∧ a < l.pa % 2 ^ 52 + 128) → Memory.read s'.phys a = Memory.read s.phys a) ∧
      (∀ key, key ≠ lineKey tag ea.toNat → Tab.find s'.lines key = Tab.find s.lines key) ∧
      (∀ x, Claims.realByte x → (e.2 = true ∨ x.line ≠ .virt tag (ea.toNat / 128 * 128)) →
        s'.teamByte u x = s.teamByte t x) ∧
      (e.2 = true → Tab.find s'.lines (lineKey tag ea.toNat) = some { l with dirty := false } ∧ s'.vmem = s.vmem) ∧
      (e.2 = false → Tab.find s'.lines (lineKey tag ea.toNat) = none ∧
        (∀ a, a / 128 ≠ lineKey tag ea.toNat → Memory.read s'.vmem a = Memory.read s.vmem a) ∧
        ∀ c, lineKey tag ea.toNat ∉ (s'.core c).ckc)

/-- R166: CFLUSH and CINV of a line of a published window complete once the team's stores and AMOs to it are performed and no
peer holds a copy: the window's bytes of the line are then in its home memory, the window keeps the line, and the team reads
every byte as before. -/
def Sys2Proof.Claims.WindowLinesGoHome : Prop :=
  ∀ (f : CA) (s : State) (k : Nat) (t : Team) (g : Nat) (w : Window) (l : Line), s.MemoryWf →
    s.CanIssueScalar k t [f.a.toNat, f.s.toNat] → t.txstat.active = false →
    let ea := t.sreg f.s.toNat + t.src f.a
    let tag := tagOf (t.asid.setWidth 16) ea.toNat
    let off := w.off + (ea.toNat / 128 * 128 - w.base)
    Claims.pathReady t (s.pathOf t false pathSTG [ea]) → ea.toNat < 2 ^ 48 → s.findWindow tag ea.toNat = some (g, w) →
    w.stat = .standing → w.base % 128 = 0 → w.off % 128 = 0 → Tab.find w.home ((ea.toNat - w.base) / 128) = some l →
    grants l.r l.w l.x l.u .load (!t.sys) = true → s.lineDrained k t (.pool g w.group off) = true →
    s.planesOf tag ea.toNat = [] → (l.c = false ∨ s.relia.mcbase.getLsbD 0 = false) →
    Memory.wf (s.poolAt g w.group).mem = true →
    (∀ i, i < 4 → s.offlineAt (l.pa % 2 ^ 52 / 32 + i) = false) → l.pa % 128 = 0 →
    ∀ i ∈ [Instr.cflush f, .cinv f], ∃ s' u, exec i s = .next s' ∧ s'.team k = some u ∧
      t.SameButAccess u [] ∧ (∀ j, j ≠ k → s'.team j = s.team j) ∧ s'.gangs = s.gangs ∧ s'.lines = s.lines ∧
      s'.vmem = s.vmem ∧ (∀ x, s'.teamByte u x = s.teamByte t x) ∧
      (∀ n, n < 128 → Memory.read s'.phys (l.pa % 2 ^ 52 + n) = s.readLoc (.pool g w.group (off + n))) ∧
      ∀ a, ¬ (l.pa % 2 ^ 52 ≤ a ∧ a < l.pa % 2 ^ 52 + 128) → Memory.read s'.phys a = Memory.read s.phys a

/-- R166: CPREF and CPREFL2 complete and change no byte that is present. CFLUSH and CINV of a cached line, or of a line of a standing
window, complete; home memory then holds its bytes, and the team reads every byte as before, after CINV of a cached line every byte
outside it. -/
def Obligations.CacheControl : Prop :=
  Claims.PrefetchesComplete ∧ Claims.CacheLinesGoHome ∧ Claims.WindowLinesGoHome

/-! ## The system family -/

namespace Sys2Proof.Claims

/-- Registers of a team that SYSR reads as they stand: number and value (R248, R22, R25, R208, R253). -/
def teamReads (t : Team) : List (Nat × W64) :=
  [(0x010, t.fpflags.setWidth 64), (0x011, t.fkey.setWidth 64), (0x013, t.retired), (0x021, t.trapcause), (0x022, t.trappc),
   (0x023, t.trappass), (0x024, t.trapinfo), (0x025, t.traplane), (0x026, t.trapmode), (0x028, t.saveptr), (0x030, t.asid),
   (0x051, t.txabpc), (0x052, t.saveinfo), (0x080, t.mxflags)] ++
  (List.range 8).map fun i => (0x040 + i, t.h.getD i 0)

/-- Registers of a core that SYSR reads as they stand, with the clock outside DET (R202, R204, R208, R253, R350). -/
def coreReads (s : State) (t : Team) : List (Nat × W64) :=
  let c := s.core t.core.toNat
  [(0x002, c.mgate), (0x020, c.trapbase), (0x027, c.preemptlim), (0x014, c.tallow), (0x048, c.misload),
   (0x049, c.miscomp), (0x04A, c.flushed), (0x04B, c.chkrecomp), (0x04C, c.logstall), (0x04D, c.brkcnt), (0x012, s.cycle)]

/-- Numbers that user mode may read: the table of R248 and those that the cluster and die chapters open. -/
abbrev openToUser (n : Nat) : Prop :=
  n ≤ 0x002 ∨ (0x010 ≤ n ∧ n ≤ 0x01D) ∨ (0x048 ≤ n ∧ n ≤ 0x04E) ∨ n = 0x050 ∨ n = 0x051 ∨ (0x080 ≤ n ∧ n ≤ 0x084) ∨
    n = 0x0C0 ∨ n = 0x0C2 ∨ n = 0x0C3 ∨ (0x0C8 ≤ n ∧ n ≤ 0x0CF)

/-- Registers that a write replaces, with the bits that they hold (R248, R253): those of a team. -/
def teamWrites : List (Nat × W64) :=
  [(0x011, 0xFFFFFFFF), (0x013, 0xFFFFFFFFFFFFFFFF), (0x021, 0x3FF), (0x022, 0xFFFFFFFFFFFC), (0x023, 0x3F),
   (0x024, 0xFFFFFFFFFFFFFFFF), (0x025, 0x3FF), (0x026, 0x3FFFFF), (0x028, 0xFFFFFFFFFF80), (0x030, 0xFFFF),
   (0x051, 0xFFFFFFFFFFFF)] ++ (List.range 8).map fun i => (0x040 + i, 0xFFFFFFFFFFFFFFFF)

/-- The same of a core's. -/
def coreWrites : List (Nat × W64) :=
  [(0x002, 0x800FFFFF), (0x020, 0xFFFFFFFFF000), (0x027, 0xFFFFFF), (0x048, 0xFFFFFFFFFFFFFFFF),
   (0x049, 0xFFFFFFFFFFFFFFFF), (0x04A, 0xFFFFFFFFFFFFFFFF), (0x04B, 0xFFFFFFFFFFFFFFFF), (0x04C, 0xFFFFFFFFFFFFFFFF),
   (0x04D, 0xFFFFFFFFFFFFFFFF)]

/-- An instruction that goes on at the next word and changes the team as `u` says. -/
def GoesOn (i : Instr) (s : State) (k : Nat) (u : Team) : Prop :=
  ∃ v, exec i s = .next (s.setTeam k v) ∧ s.KeepsRest (s.setTeam k v) k ∧ u.Retired v [] (u.pc + 4)

/-- The next state of a trap taken at once: the records of R252, system mode with MODE 2, the vector of the cause;
what the interrupted instruction has committed is put aside for its resumption (R198), and the unchecked passes are
discarded; the instruction counts as retired where the trap is taken after it. -/
def TrapTaken (s : State) (t u : Team) (r : TrapRec) : Prop :=
  u = { t with
    trapcause := BitVec.ofNat 64 (r.cause.toNat + (if r.done = true then 256 else 0) + (if r.waitOnly = true then 512 else 0))
    trappc := r.pc.setWidth 64, trappass := BitVec.ofNat 64 r.pass, trapinfo := r.info, traplane := BitVec.ofNat 64 r.lane
    trapmode := t.mode.setWidth 64, mode := 2, sys := true
    pc := (((s.core t.core.toNat).trapbase &&& 0xFFFFFFFFF000) + BitVec.ofNat 64 (64 * r.cause.toNat)).setWidth 48
    pass := 0, waitOnly := false, trap := none, rowWait := none, inside := false, yielded := none, prog := {}
    progSaved := t.prog, pipe := u.pipe
    retired := if r.done = true then t.retired + 1 else t.retired, park := u.park } ∧
  (r.done = false ∨ t.launch.det = false → u.park = t.park)

end Sys2Proof.Claims

/-- R122, R247, R248: SYSR of a team's or its core's register completes with the register's value, in system mode and,
where R248 opens the register, in user mode. Reads that depend on placement or time are for teams outside DET here. -/
def Obligations.SystemRegisterReads : Prop :=
  ∀ (f : SYR) (s : State) (k : Nat) (t : Team) (v : W64), s.CanIssueScalar k t [f.s.toNat] →
    (t.sys = true ∨ Claims.openToUser f.n.toNat) →
    ((f.n.toNat, v) ∈ Claims.teamReads t ∨ ((f.n.toNat, v) ∈ Claims.coreReads s t ∧ t.launch.det = false)) →
    Claims.WritesScalar (.sysr f) s k t [f.s.toNat] f.s.toNat v

/-- R122, R248: SYSW in system mode completes: the register then reads the bits of s[r] that it holds, and every other
system register but MARGIN as before (CYCLE reads RETIRED under DET); no other team and no byte of memory changes. ASID
waits for paths 0, 1, 2 and 6. -/
def Sys2Proof.Claims.PlainRegisterWrites : Prop :=
  ∀ (f : SYR) (s : State) (k : Nat) (t : Team) (m : W64), s.CanIssueScalar k t [f.s.toNat] → t.sys = true →
    (f.n.toNat, m) ∈ Claims.teamWrites ++ Claims.coreWrites → (f.n.toNat = 0x030 → t.drained = true) →
    ∃ s' u, exec (.sysw f) s = .next s' ∧ s'.team k = some u ∧
      s'.sysRead u f.n.toNat = t.sreg f.s.toNat &&& m ∧
      (∀ n, n ≠ f.n.toNat → n ≠ 0x04E → (f.n.toNat = 0x013 → t.launch.det = false) → s'.sysRead u n = s.sysRead t n) ∧
      u.s = t.s ∧ u.rows = t.rows ∧ u.mode = t.mode ∧ u.sys = true ∧ u.paths = t.paths ∧ u.txstat = t.txstat ∧
      u.pc = t.pc + 4 ∧ u.pass = 0 ∧ (∀ l, s'.readLoc l = s.readLoc l) ∧ s'.phys = s.phys ∧
      (∀ j, j ≠ k → s'.team j = s.team j) ∧ s'.gangs = s.gangs ∧ s'.grids = s.grids

/-- R6, R25, R122, R248: SYSW of FPFLAGS and MXFLAGS clears the bits that are written 0, in either mode; SYSW of FKEY
writes its 32 bits in user mode too. -/
def Sys2Proof.Claims.FlagRegisterWrites : Prop :=
  ∀ (f : SYR) (s : State) (k : Nat) (t : Team), s.CanIssueScalar k t [f.s.toNat] →
    (f.n.toNat = 0x010 → Claims.GoesOn (.sysw f) s k { t with fpflags := t.fpflags &&& (t.sreg f.s.toNat).setWidth 32 }) ∧
    (f.n.toNat = 0x080 → Claims.GoesOn (.sysw f) s k { t with mxflags := t.mxflags &&& t.sreg f.s.toNat }) ∧
    (f.n.toNat = 0x011 → Claims.GoesOn (.sysw f) s k { t with fkey := (t.sreg f.s.toNat).setWidth 32 })

/-- R6, R122, R248: SYSW. -/
def Obligations.SystemRegisterWrites : Prop := Claims.PlainRegisterWrites ∧ Claims.FlagRegisterWrites


/-- R121, R123, R124: NOP and YIELD go on without effect on the team's own state, YIELD noting the cycle from which the core
offers its other ready teams an issue slot first; MODEI writes MODE[15:0], MODEW MODE[21:0], and MODER reads MODE. -/
def Obligations.ModeAndNop : Prop :=
  ∀ (s : State) (k : Nat) (t : Team),
    (∀ f, s.CanIssueScalar k t [] → Claims.GoesOn (.nop f) s k t) ∧
    (∀ f, s.CanIssueScalar k t [] → Claims.GoesOn (.yield f) s k { t with yielded := some s.cycle, offered := [] }) ∧
    (∀ f : SYI, s.CanIssueScalar k t [] →
      Claims.GoesOn (.modei f) s k { t with mode := t.mode.extractLsb' 16 16 ++ f.i }) ∧
    (∀ f : SYS, s.CanIssueScalar k t [f.s.toNat] →
      Claims.GoesOn (.modew f) s k { t with mode := ((t.sreg f.s.toNat).extractLsb' 0 22).setWidth 32 } ∧
      Claims.WritesScalar (.moder f) s k t [f.s.toNat] f.s.toNat (t.mode.setWidth 64))

/-- R39, R125, R304: EXIT outside a transaction ends the team: it issues no more and is a live participant no more. -/
def Obligations.ExitEndsTheTeam : Prop :=
  ∀ (f : SY) (s : State) (k : Nat) (t : Team), s.CanIssueScalar k t [] → t.txstat.active = false → t.reports = [] →
    ∃ s' u, exec (.exit f) s = .next s' ∧ s'.team k = some u ∧ u.stat = .exited ∧ u.mayIssue = false ∧
      u.s = t.s ∧ u.paths = t.paths ∧ u.retired = t.retiredNext ∧ s'.grids = s.grids ∧ s'.cores = s.cores ∧
      (∀ j, j ≠ k → s'.team j = s.team j) ∧ (∀ l, s'.readLoc l = s.readLoc l) ∧
      (∀ j, j ≠ t.gangKey → s'.gang j = s.gang j) ∧
      ∀ g, s.gang t.gangKey = some g → ∃ g', s'.gang t.gangKey = some g' ∧ g' = { g with live := g'.live } ∧
        ∀ n, n ∈ g'.live ↔ n ∈ g.live ∧ n ≠ t.num

/-- R134, R249, R252, R255: a trap of a team in user mode, outside a transaction, with its paths at zero and no access
begun, is taken at once, with the flags of the interrupted instruction's committed passes in FPFLAGS; TRAP takes the
software trap with its immediate in TRAPINFO, after the instruction. -/
def Sys2Proof.Claims.TrapsAreTaken : Prop :=
  ∀ (s : State) (k : Nat) (t : Team), s.team k = some t → t.sys = false → t.txstat.active = false → t.openOp = none →
    t.drained = true →
    (∀ r : TrapRec, r.cause ≠ 0x0E → ∃ u, s.raise k r = s.setTeam k u ∧ Claims.TrapTaken s t.closeWindow u r) ∧
    ∀ f : SYI, s.CanIssueScalar k t [] → ∃ u, exec (.trap f) s = .next (s.setTeam k u) ∧
      Claims.TrapTaken s t.closeWindow u { cause := 0x07, done := true, pc := t.pc, info := f.i.setWidth 64 }

/-- R249: a trap decided while loads, stores or AMOs are on their way is taken at TRAP_ENTRY, once paths 0, 1, 2 and 6 are
zero; until then the team issues nothing. -/
def Sys2Proof.Claims.TrapsWaitForThePaths : Prop :=
  ∀ (s : State) (k : Nat) (t : Team), s.team k = some t → t.sys = false → t.txstat.active = false → t.openOp = none →
    (t.drained = false → ∀ r : TrapRec, r.done = false → ∃ u, s.raise k r = s.setTeam k u ∧
      u = { t.closeWindow with trap := some r, pipe := u.pipe } ∧ u.mayIssue = false) ∧
    (t.drained = true → ∀ r : TrapRec, t.trap = some r → r.cause ≠ 0x0E → r.cause ≠ 0x08 → r.done = false → t.stat = .running →
      ∃ u, exec (.trapEntry k) s = .next (s.setTeam k u) ∧ Claims.TrapTaken s t u r)

/-- R249, R252, R255: when and how a trap is taken. -/
def Obligations.TrapEntry : Prop := Claims.TrapsAreTaken ∧ Claims.TrapsWaitForThePaths


/-- R251: a trap in system mode halts the team as a faulted HALT does, keeps the first trap's records and faults the
grid. -/
def Obligations.DoubleTrapsHaltTheTeam : Prop :=
  ∀ (s : State) (k : Nat) (t : Team) (r : TrapRec), s.team k = some t → t.sys = true → t.openOp = none →
    ∃ u, (s.raise k r).team k = some u ∧ u.stat = .stopped ∧ u.trapcause = t.trapcause ∧ u.trappc = t.trappc ∧
      u.trappass = t.trappass ∧ u.trapinfo = t.trapinfo ∧ u.traplane = t.traplane ∧ u.trapmode = t.trapmode ∧ u.s = t.s ∧
      (∀ g, s.gang t.gangKey = some g → ∃ g', (s.raise k r).gang t.gangKey = some g' ∧ t.num ∉ g'.live) ∧
      ∀ q, s.grid t.seq = some q → q.stat ≠ .retired → ∃ q', (s.raise k r).grid t.seq = some q' ∧
        q'.reason = if q.reason = 0 then 4 else q.reason

/-- R256: ERET in system mode without a pending restore goes back to user mode with MODE := TRAPMODE: after the trapping
instruction where it has retired, else at it, in the pass and part that the records name, with what its committed passes
left; the passes issued beyond ERET are discarded. -/
def Sys2Proof.Claims.EretResumes : Prop :=
  ∀ (f : SY) (s : State) (k : Nat) (t : Team), s.CanIssueScalar k t [] → t.sys = true → t.saveinfo.getLsbD 2 = false →
    ∃ u, exec (.eret f) s = .next (s.setTeam k u) ∧ s.KeepsRest (s.setTeam k u) k ∧
      u = { t with
        mode := t.trapmode.setWidth 32, sys := false, saving := false, pc := u.pc, pass := u.pass, waitOnly := u.waitOnly
        inside := false, yielded := u.yielded, prog := t.progSaved, progSaved := {}
        pipe := { t.pipe with log := [], next := none } } ∧
      (t.trapcause.getLsbD 8 = true → u.pc = t.trappc.setWidth 48 + 4 ∧ u.pass = 0 ∧ u.waitOnly = false) ∧
      (t.trapcause.getLsbD 8 = false → u.pc = t.trappc.setWidth 48 ∧ u.pass = t.trappass.toNat ∧
        u.waitOnly = t.trapcause.getLsbD 9)

/-- R256, R263: ERET with a pending restore loads s0 to s63, h0 to h7, FKEY and FPFLAGS from the scalar block at
SAVEPTR, and clears RESTORE, before it resumes. -/
def Sys2Proof.Claims.EretRestores : Prop :=
  ∀ (f : SY) (s : State) (k : Nat) (t : Team) (loc : Nat → Loc) (page : Nat → Option Page), s.CanIssueScalar k t [] →
    t.sys = true → t.saveinfo.getLsbD 2 = true →
    (∀ n, n < 74 → s.Grants k t false .load 8 (t.saveptr + BitVec.ofNat 64 (8 * n)) (loc n) (page n)) →
    ∃ s' u, exec (.eret f) s = .next s' ∧ s'.team k = some u ∧ s.KeepsRest s' k ∧ u.sys = false ∧
      u.mode = t.trapmode.setWidth 32 ∧ u.saveinfo = t.saveinfo &&& ~~~4#64 ∧ u.rows = t.rows ∧
      (∀ n, n < 64 → ∀ i, i < 8 → Claims.byteOf (u.sreg n) i = s.teamByte t ((loc n).add i)) ∧
      (∀ n, n < 8 → ∀ i, i < 8 → Claims.byteOf (u.h.getD n 0) i = s.teamByte t ((loc (64 + n)).add i)) ∧
      (∀ i, i < 4 → u.fkey.extractLsb' (8 * i) 8 = s.teamByte t ((loc 72).add i)) ∧
      u.fpflags = ((s.teamByte t ((loc 73).add 0)) &&& 0x1F).setWidth 32

/-- R256: ERET, with and without a restore. -/
def Obligations.EretReturns : Prop := Claims.EretResumes ∧ Claims.EretRestores


/-- R257: HALT in system mode waits until every counter of the team is zero, and in this model until the queued stores
that its loads have read are visible (log 101); after a save it leaves the core with its rows released, otherwise its
grid faults with reason 4. -/
def Obligations.HaltEndsThePresence : Prop :=
  ∀ (f : SY) (s : State) (k : Nat) (t : Team), s.CanIssueScalar k t [] → t.sys = true →
    let waits := (s.core t.core.toNat).standing (t.seen ++ t.acquired)
    (t.allZero = false ∨ waits ≠ [] → exec (.halt f) s = .next s) ∧
    (t.allZero = true → waits = [] → t.trapcause.toNat % 256 = 0x08 → t.saveinfo.getLsbD 2 = false → ∃ s' u,
      exec (.halt f) s = .next s' ∧ s'.team k = some u ∧ u.stat = .saved ∧ u.rows = [] ∧ u.s = t.s) ∧
    (t.allZero = true → waits = [] → ¬ (t.trapcause.toNat % 256 = 0x08 ∧ t.saveinfo.getLsbD 2 = false) → ∃ s' u,
      exec (.halt f) s = .next s' ∧ s'.team k = some u ∧ u.stat = .stopped ∧ u.s = t.s ∧
      ∀ q, s.grid t.seq = some q → q.stat ≠ .retired → ∃ q', s'.grid t.seq = some q' ∧
        q'.reason = if q.reason = 0 then 4 else q.reason)

/-- R171, R172, R227: WAITC goes on when its counter is at most its threshold and stalls otherwise, parking under DET
on the paths of the engines; RDC reads the counter; FENCE goes on unless a release of CLUSTER scope or wider must
wait, and an acquire of such a scope orders the queued stores that the team has read before its later ones (R222). -/
def Obligations.CountersAndFences : Prop :=
  ∀ (s : State) (k : Nat) (t : Team),
    (∀ f : SYC, s.CanIssueScalar k t [f.s.toNat] →
      (t.counter ⟨f.p.toNat, f.p.isLt⟩ ≤ (t.sreg f.s.toNat).toNat → Claims.GoesOn (.waitc f) s k t) ∧
      ((t.sreg f.s.toNat).toNat < t.counter ⟨f.p.toNat, f.p.isLt⟩ →
        exec (.waitc f) s = .next
          (if t.buffers = true ∧ f.p ∈ [3#3, 4#3, 5#3] then s.setTeam k { t with park := some .waitc } else s)) ∧
      (t.launch.det = false →
        Claims.WritesScalar (.rdc f) s k t [f.s.toNat] f.s.toNat (BitVec.ofNat 64 (t.counter ⟨f.p.toNat, f.p.isLt⟩)))) ∧
    (∀ f : SYF, s.CanIssueScalar k t [] →
      (f.k = 1 ∨ f.o.toNat < 2 ∨ s.released k t = true → Claims.GoesOn (.fence f) s k { t with
        acquired := if f.k ≠ 2 ∧ 2 ≤ f.o.toNat then (t.acquired ++ t.seen).eraseDups else t.acquired }) ∧
      (f.k ≠ 1 → 2 ≤ f.o.toNat → s.released k t = false → exec (.fence f) s = .next s))

/-- R258: RMAP in system mode writes, for each word of the team, all ones where the register is mapped and 0 where it is
not; with 32 lanes the upper half is 0. -/
def Obligations.RmapReportsTheMap : Prop :=
  ∀ (f : SYM) (s : State) (k : Nat) (t : Team), Claims.legalLanes t → Claims.blockFits t (f.s.setWidth 7) →
    s.CanIssueScalar k t (Claims.blockRange t f.s.toNat) → t.sys = true →
    Claims.WritesBlock (.rmap f) s k t (Claims.blockRange t f.s.toNat) f.s.toNat
      (fun j => (t.row f.a.toNat (j / 32)).isSome)

/-- R63, R64: a word that fails a check on the word alone takes the illegal-instruction trap, with the word in
TRAPINFO[31:0] and the reason of its first failing check above it. -/
def Obligations.ReservedWordsTrap : Prop :=
  ∀ (w : W32) (s : State) (k : Nat) (t : Team) (e : Reject), decode w = .error e → s.CanIssue k t [] →
    exec (.reservedEncoding w) s =
      .next (s.raise k { cause := 0x01, pc := t.pc, info := w.setWidth 64 + BitVec.ofNat 64 (2 ^ 32 * e.reason) })

/-! ## Engines, launches and windows -/

namespace Sys2Proof.Claims

/-- The matrix commands: kind, scalar operands, path (R169, R271). -/
def matrixOps : List ((EN → Instr) × MKind × (EN → List Nat) × Fin 8) :=
  let one (f : EN) : List Nat := [f.a.toNat]
  let three (f : EN) : List Nat := [f.a.toNat, f.b.toNat, f.c.toNat]
  [(.mma, .mma, one, pathMTX), (.mmag, .mmag, one, pathMTX), (.mzero, .mzero, one, pathMTX),
   (.mldacc, .mldacc, three, pathMTX), (.mdrain, .mdrain, three, pathDRN), (.mdraina, .mdraina, three, pathDRN),
   (.mdrainb, .mdrainb, three, pathDRN), (.mqnt, .mqnt, one, pathDRN)]

/-- The copies: kind (R316). -/
def copyOps : List ((EN → Instr) × CKind) := [(.cpy, .cpy), (.cpyq, .cpyq), (.cpyp, .cpyp)]

/-- An operation that a DET grid holds for its serial phase (R362, R365); `s₀` is `s` with what its check has noted. -/
def heldAs (i : Instr) (s s₀ : State) (k : Nat) (t u : Team) (cmd : HeldCmd) : Prop :=
  ∃ h : Held, h.instr = i ∧ h.cmd = cmd ∧ h.team = t.key ∧ h.clock = t.retired.toNat ∧
    exec i s = .next ((s₀.setTeam k u).modGrid t.seq fun g => { g with held := g.held ++ [h] })

/-- A team in user mode under DET parks at a synchronising operation, which is held (R361, R364). -/
def parksAt (i : Instr) (s : State) (k : Nat) (t : Team) : Prop :=
  heldAs i s s k t { t with park := some .sync } .sync

end Sys2Proof.Claims

/-- R271, R281, R282: a matrix command that passes its checks completes at its check: it enters the cluster's
reservation table with its operation's name, its path one higher, where nothing that it read is poisoned; under DET it
is held for the serial phase; with a full table it waits. -/
def Obligations.MatrixCommandsEnterTheTable : Prop :=
  ∀ c ∈ Claims.matrixOps, ∀ (f : EN) (s : State) (k : Nat) (t : Team) (e₀ : MEntry) (read : List Extent),
    s.CanIssueScalar k t (c.2.2.1 f) → t.txstat.active = false → t.counter c.2.2.2 < 255 →
    s.matrixCheck k t c.2.1 f = .ready e₀ read → s.viewPoison t read = [] →
    let cl := t.core.toNat / 4
    let s₀ := s.noteView k t read
    let e := { e₀ with poisonSeen := false }
    e.team = k ∧ e.op = t.opSeq ∧ e.kind = c.2.1 ∧ e.gang = t.gangKey ∧ e.pc = t.pc ∧
    e.lead.toNat = t.core.toNat % 4 ∧ e.sys = t.sys ∧
    (t.buffers = false → (s.cluster cl).table.length < 16 → s.discards e = false → ∃ u,
      exec (c.1 f) s =
        .next ((s₀.setTeam k u).setCluster cl
          { s.cluster cl with table := (s.cluster cl).table ++ [{ e with since := s.timeNs }] }) ∧
      Claims.startsOn t u c.2.2.2 ∧ u.busy = t.busy) ∧
    (t.buffers = true → ∃ u, Claims.heldAs (c.1 f) s s₀ k t u (.matrix e) ∧ Claims.startsOn t u c.2.2.2 ∧ u.busy = t.busy) ∧
    (t.buffers = false → 16 ≤ (s.cluster cl).table.length → exec (c.1 f) s = .next s)

/-- R269, R278, R281: MZERO passes its checks whenever its tile exists, and takes cause 0x0A with reason 3 where it does
not; MLDACC, MDRAIN, MDRAINA and MDRAINB pass theirs when their tile exists and every row of theirs may be accessed. -/
def Obligations.AccumulatorCommandChecks : Prop :=
  ∀ (f : EN) (s : State) (k : Nat) (t : Team),
    ((t.sreg f.a.toNat).toNat < t.launch.acc / 16384 → ∃ e, s.matrixCheck k t .mzero f = .ready e [] ∧
      e.tile = (t.sreg f.a.toNat).toNat) ∧
    (t.launch.acc / 16384 ≤ (t.sreg f.a.toNat).toNat → s.matrixCheck k t .mzero f = .trap 0x0A 3) ∧
    ∀ p ∈ [(MKind.mldacc, Need.load, 512, 4), (.mdrain, .store, 512, 4), (.mdraina, .store, 512, 4), (.mdrainb, .store, 256, 2)],
      (t.sreg f.a.toNat).toNat < t.launch.acc / 16384 →
      (∀ i, i < 64 → s.extentStat k t
        { addr := ((t.sreg f.b.toNat).toNat + i * ((t.sreg f.c.toNat).toNat % 2 ^ 32)) % 2 ^ 64, len := p.2.2.1
          align := p.2.2.2, need := p.2.1, stride := (t.sreg f.c.toNat).toNat % 2 ^ 32 } = .ok) →
      ∃ e, s.matrixCheck k t p.1 f = .ready e [] ∧ e.tile = (t.sreg f.a.toNat).toNat ∧
        e.addr = t.sreg f.b.toNat ∧ e.stride = (t.sreg f.c.toNat).toNat % 2 ^ 32

/-- R316, R317, R320, R323: CPY, CPYQ and CPYP with a descriptor that passes their checks complete at their check: the
command with the descriptor as read joins the cluster's queue, path CPY one higher; under DET it is held; with a full
queue it waits. -/
def Obligations.CopiesAreQueued : Prop :=
  ∀ c ∈ Claims.copyOps, ∀ (f : EN) (s : State) (k : Nat) (t : Team),
    s.CanIssueScalar k t [f.a.toNat, f.b.toNat, f.c.toNat] → t.txstat.active = false → t.counter pathCPY < 255 →
    let a := (t.sreg f.a.toNat).toNat
    let cl := t.core.toNat / 4
    let d := readDesc fun o n => s.viewLE t (a + o) n
    s.descStat k t a = .ok → copyFail c.2 d (t.sreg f.b.toNat).toNat (t.sreg f.c.toNat).toNat t.launch.scratch = none →
    s.viewPoison t [{ addr := a, len := 256, align := 1, need := .load }] = [] →
    let s₀ := s.noteView k t [{ addr := a, len := 256, align := 1, need := .load }]
    ∃ (u : Team) (x : CopyCmd), x.team = k ∧ x.op = t.opSeq ∧ x.kind = c.2 ∧ x.src = t.sreg f.b.toNat ∧
      x.dst = t.sreg f.c.toNat ∧ x.desc = d ∧ x.gang = t.gangKey ∧ x.group = t.group ∧ x.sys = t.sys ∧ x.pc = t.pc ∧
      Claims.startsOn t u pathCPY ∧ u.busy = t.busy ∧
      (t.buffers = false → (s.cluster cl).copies.length < 16 → exec (c.1 f) s =
        .next ((s₀.setTeam k u).setCluster cl { s.cluster cl with copies := (s.cluster cl).copies ++ [x] })) ∧
      (t.buffers = true → Claims.heldAs (c.1 f) s s₀ k t u (.copy x)) ∧
      (t.buffers = false → 16 ≤ (s.cluster cl).copies.length → exec (c.1 f) s = .next s)

/-- R348, R349: LAUNCH outside DET completes with its status in s[C]: 2 for a queue that does not take LAUNCH (R334),
1 for a full ring, and 0 with the packet in the ring's next slot, in this module's memory, and TAIL one higher. At
depth 10 it traps; under DET it parks. -/
def Obligations.LaunchStatus : Prop :=
  ∀ (f : EN) (s : State) (k : Nat) (t : Team), s.CanIssueScalar k t [f.a.toNat, f.b.toNat, f.c.toNat] →
    t.txstat.active = false →
    (t.launch.depth = 10 → exec (.launch f) s = .next (s.raise k { cause := 0x09, pc := t.pc, info := 10 })) ∧
    (t.launch.depth ≠ 10 → s.imageStat k t (t.sreg f.a.toNat).toNat = .ok →
      let q := t.sreg f.b.toNat
      let n := BitVec.ofNat 6 q.toNat
      let x := s.queue n
      let s₀ := s.noteView k t [{ addr := (t.sreg f.a.toNat).toNat, len := 128, align := 128, need := .load }]
      let status (v : W64) : Prop := ∃ u, exec (.launch f) s = .next (s₀.setTeam k u) ∧
        t.Retired u [f.c.toNat] (t.pc + 4) ∧ u.sreg f.c.toNat = v
      (t.buffers = true → Claims.parksAt (.launch f) s k t) ∧
      (t.launch.det = false → (63 < q.toNat ∨ x.en = false ∨ x.devok = false) → status 2) ∧
      (t.launch.det = false → q.toNat ≤ 63 → x.en = true → x.devok = true → s.slotBusy n = false →
        (x.slots ≤ x.count → status 1) ∧
        (x.count < x.slots →
          let va := x.slotAt x.tail.toNat
          (∀ s₁ p, s₀.reach s₀.ioTlb (tagOf 0 va) va .store false true ≠ .peer s₁ p) →
          ∀ s₁, s₀.agentWrite 0 va (s.viewBytes t (t.sreg f.a.toNat).toNat 128) none none = .done () s₁ →
          ∃ u, exec (.launch f) s = .next (((s₁.agentCrc 0 va 128).setQueue n
              { x with tail := x.tail + 1, parents := Tab.put x.parents x.tail.toNat t.seq }).setTeam k u) ∧
            t.Retired u [f.c.toNat] (t.pc + 4) ∧ u.sreg f.c.toNat = 0)))

/-- R309 to R312: PUBLISH that passes its checks opens a window over its range, and UNPUB of a standing window of the
team's group begins its withdrawal, of two at one base that under its own tag (log 114); the team then awaits the completion and
issues nothing. Under DET each parks. UNPUB
of another base takes protection with reason 3. -/
def Obligations.WindowsOpenAndClose : Prop :=
  ∀ (f : EN) (s : State) (k : Nat) (t : Team) (g : Gang), t.txstat.active = false → s.gang t.gangKey = some g →
    (s.CanIssueScalar k t [f.a.toNat, f.b.toNat, f.c.toNat] →
      let base := (t.sreg f.a.toNat).toNat
      let off := (t.sreg f.b.toNat).toNat % 2 ^ 63
      let len := (t.sreg f.c.toNat).toNat
      s.pubCheck k t base off len = .ok →
      (t.buffers = true → Claims.parksAt (.publish f) s k t) ∧
      (t.launch.det = false → ∃ u w c, exec (.publish f) s =
          .next (({ s with tlb := c }.setTeam k u).setGang t.gangKey { g with windows := g.windows ++ [w] }) ∧
        u = { t with
          await := some (.publish base), pc := t.pc + 4, pass := 0, waitOnly := false, rowWait := none
          retired := t.retiredNext, inside := false, yielded := u.yielded, prog := {}, pipe := u.pipe } ∧ u.mayIssue = false ∧
        w.base = base ∧ w.off = off ∧ w.len = len ∧ w.group = t.group ∧ w.stat = .opening)) ∧
    (s.CanIssueScalar k t [f.a.toNat] →
      let base := (t.sreg f.a.toNat).toNat
      let mine (w : Window) : Bool := w.base == base && w.group == t.group && w.stat == .standing
      (g.windows.any mine = true → t.buffers = true → Claims.parksAt (.unpub f) s k t) ∧
      (g.windows.any mine = true → t.launch.det = false → ∃ u w, w ∈ g.windows ∧ mine w = true ∧
        ((∃ x ∈ g.windows, mine x = true ∧ x.tag = tagOf (t.asid.setWidth 16) base) →
          w.tag = tagOf (t.asid.setWidth 16) base) ∧ exec (.unpub f) s =
          .next ((s.setTeam k u).setGang t.gangKey
            { g with windows := g.windows.map fun x => if x == w then { w with stat := .closing } else x }) ∧
        u = { t with
          await := some (.unpub base w.tag), pc := t.pc + 4, pass := 0, waitOnly := false, rowWait := none
          retired := t.retiredNext, inside := false, yielded := u.yielded, prog := {}, pipe := u.pipe } ∧ u.mayIssue = false) ∧
      (g.windows.any mine = false → exec (.unpub f) s = .next ((s.setTeam k t).raise k
          { cause := 0x05, pc := t.pc, info := BitVec.ofNat 64 (base % 2 ^ 48 + 3 * 2 ^ 48) })))

/-! ## Barriers and phases -/

/-- Team `t` may arrive at the barrier `id` (R301, R302, R227): outside DET and transactions, at a barrier that its
grid has and that is not frozen (R266), with no pending mark there or one whose episode has completed, its earlier
accesses released. -/
abbrev Sys2Proof.Claims.mayArrive (s : State) (k : Nat) (t : Team) (id : BitVec 5) : Prop :=
  t.launch.det = false ∧ t.txstat.active = false ∧ id.toNat ≤ 16 ∧
    (id = 16 → t.launch.cohort = true ∧ (s.grid t.seq).isSome = true) ∧ (s.gang t.gangKey).isSome = true ∧
    s.frozenAt t id = false ∧ (∀ e, Tab.find t.pend id.toNat = some e → e < ((s.settle t).barrierOf t id).episode) ∧
    s.released k t = true

/-- The arrival of team `t`, which has become `u`, in `s'`: its mark names the episode that was open, which now holds the
arrival or, if that was the last one, is completed; no register, no memory and no other team changes. -/
def Sys2Proof.Claims.Arrived (s s' : State) (k : Nat) (t u : Team) (id : BitVec 5) : Prop :=
  let b := (s.settle t).barrierOf t id
  s'.team k = some u ∧ Tab.find u.pend id.toNat = some b.episode ∧ u.s = t.s ∧ u.rows = t.rows ∧
    ((s'.barrierOf t id).episode = b.episode + 1 ∧ (s'.barrierOf t id).arrivals = [] ∨
      (s'.barrierOf t id).episode = b.episode ∧ ∃ a ∈ (s'.barrierOf t id).arrivals, a.who = t.arriver id) ∧
    (∀ j, j ≠ k → s'.team j = s.team j) ∧ s'.cores = s.cores ∧ s'.phys = s.phys ∧ ∀ l, s'.readLoc l = s.readLoc l

/-- R301, R302: BARARR completes: the team has arrived and goes on at the next word. BARSYNC arrives the same way and
waits where it stands. -/
def Obligations.BarrierArrivals : Prop :=
  ∀ (f : SYB) (s : State) (k : Nat) (t : Team), s.CanIssueScalar k t [] → Claims.mayArrive s k t f.i →
    (∃ s' u, exec (.bararr f) s = .next s' ∧ Claims.Arrived s s' k t u f.i ∧ u.pc = t.pc + 4 ∧ u.pass = 0 ∧
      u.waitOnly = false ∧ u.retired = t.retiredNext) ∧
    (t.waitOnly = false → ∃ s' u, exec (.barsync f) s = .next s' ∧ Claims.Arrived s s' k t u f.i ∧ u.pc = t.pc ∧
      u.waitOnly = true ∧ u.retired = t.retired)

/-- R302: outside DET, BARWAIT, and BARSYNC once it has arrived, go on when the marked episode has completed, leaving
the barrier, and wait otherwise, unless its unit is frozen (R266); BARTEST answers 2 without a mark, 1 and leaves for
a completed episode, and 0 for an open one. -/
def Obligations.BarrierWaits : Prop :=
  ∀ (s : State) (k : Nat) (t : Team), t.launch.det = false → t.txstat.active = false →
    (∀ (f : SYB) (e : Nat), s.CanIssueScalar k t [] → (f.i = 16 → t.launch.cohort = true) → s.frozenAt t f.i = false →
      Tab.find t.pend f.i.toNat = some e →
      ∀ p ∈ [(Instr.barwait f, true), (.barsync f, t.waitOnly)], p.2 = true →
        (e < ((s.settle t).barrierOf t f.i).episode →
          ∃ u, exec p.1 s = .next ((s.settle t).setTeam k u) ∧
            { t with pend := Tab.erase t.pend f.i.toNat }.Retired u [] (t.pc + 4)) ∧
        (((s.settle t).barrierOf t f.i).episode ≤ e → exec p.1 s = .next (s.settle t))) ∧
    ∀ f : SYT, s.CanIssueScalar k t [f.s.toNat] → (f.i = 16 → t.launch.cohort = true) → s.frozenAt t f.i = false →
      ∃ u v, exec (.bartest f) s = .next ((s.settle t).setTeam k u) ∧ u.sreg f.s.toNat = v ∧
        match Tab.find t.pend f.i.toNat with
        | none => v = 2 ∧ t.Retired u [f.s.toNat] (t.pc + 4)
        | some e =>
          if e < ((s.settle t).barrierOf t f.i).episode then
            v = 1 ∧ { t with pend := Tab.erase t.pend f.i.toNat }.Retired u [f.s.toNat] (t.pc + 4)
          else v = 0 ∧ t.Retired u [f.s.toNat] (t.pc + 4)

/-- R243, R247, R248: in user mode ERET, HALT, RMAP, and SYSR and SYSW of a number that is not open, take the
privilege trap with their word in TRAPINFO. Inside a transaction EXIT, PHADV, the barriers, the AMOs, the reductions with a
pass to issue (the others retire, R15), the matrix commands, copies, LAUNCH, PUBLISH, UNPUB, CFLUSH and CINV,
TXBEGIN there or in system mode, and TXABORT and TXEND outside one, take transaction misuse. -/
def Sys2Proof.Claims.PrivilegeAndTransactionMisuse : Prop :=
  ∀ (s : State) (k : Nat) (t : Team),
    let trap (i : Instr) (c : BitVec 8) : Prop :=
      exec i s = .next (s.raise k { cause := c, pc := t.pc, info := ((encode i).getD 0).setWidth 64 })
    (t.sys = false → s.CanIssue k t [] → ∀ f, trap (.eret f) 0x0D ∧ trap (.halt f) 0x0D) ∧
    (t.sys = false → ∀ f : SYM, Claims.legalLanes t → Claims.blockFits t (f.s.setWidth 7) →
      s.CanIssue k t (Claims.blockRange t f.s.toNat) → trap (.rmap f) 0x0D) ∧
    (t.sys = false → ∀ f : SYR, s.CanIssue k t [f.s.toNat] →
      (¬ Claims.openToUser f.n.toNat → trap (.sysr f) 0x0D) ∧
      (f.n.toNat ∉ [0x010, 0x011, 0x080] → trap (.sysw f) 0x0D)) ∧
    (t.txstat.active = true →
      (s.CanIssueScalar k t [] → (∀ f, trap (.exit f) 0x0C ∧ trap (.phadv f) 0x0C) ∧
        ∀ f, trap (.bararr f) 0x0C ∧ trap (.barwait f) 0x0C ∧ (t.waitOnly = false → trap (.barsync f) 0x0C)) ∧
      (∀ f : SYT, s.CanIssueScalar k t [f.s.toNat] → trap (.bartest f) 0x0C) ∧
      (∀ (n : Nat) (c : AM → Instr), Claims.amos[n]? = some c → ∀ f, s.CanIssueScalar k t (Claims.amoFields n f) →
        trap (c f) 0x0C) ∧
      (∀ e ∈ Claims.reductions', ∀ f : RD, t.guardBeyond = false → s.CanIssueScalar k t (f.s.toNat :: t.guardRegs) →
        t.issued ≠ [] → trap (e.1 f) 0x0C) ∧
      (∀ c ∈ Claims.matrixOps, ∀ f, s.CanIssueScalar k t (c.2.2.1 f) → trap (c.1 f) 0x0C) ∧
      (∀ c ∈ Claims.copyOps.map (·.1) ++ [Instr.launch, .publish], ∀ f : EN,
        s.CanIssueScalar k t [f.a.toNat, f.b.toNat, f.c.toNat] → trap (c f) 0x0C) ∧
      (∀ f : EN, s.CanIssueScalar k t [f.a.toNat] → trap (.unpub f) 0x0C) ∧
      ∀ f : CA, s.CanIssueScalar k t [f.a.toNat, f.s.toNat] → trap (.cflush f) 0x0C ∧ trap (.cinv f) 0x0C) ∧
    (t.txstat.active = true ∨ t.sys = true → t.guardBeyond = false → s.CanIssueScalar k t t.guardRegs →
      ∀ f, trap (.txbegin f) 0x0C) ∧
    (t.txstat.active = false → s.CanIssueScalar k t [] → ∀ f, trap (.txabort f) 0x0C) ∧
    (t.txstat.active = false → ∀ f : SYS, Claims.legalLanes t → Claims.blockFits t (f.s.setWidth 7) →
      s.CanIssueScalar k t (Claims.blockRange t f.s.toNat) → trap (.txend f) 0x0C)

/-- R301, R302: a barrier instruction at id 16 in a grid without COHORT, BARWAIT without a mark, and an arrival of BARARR or
BARSYNC while the marked episode is open, outside DET, take barrier misuse with their word. -/
def Sys2Proof.Claims.BarrierMisuseTraps : Prop :=
  ∀ (s : State) (k : Nat) (t : Team), t.txstat.active = false →
    let trap (i : Instr) : Prop :=
      exec i s = .next (s.raise k { cause := 0x0F, pc := t.pc, info := ((encode i).getD 0).setWidth 64 })
    (∀ f : SYB, s.CanIssueScalar k t [] → f.i = 16 → t.launch.cohort = false → t.waitOnly = false →
      trap (.bararr f) ∧ trap (.barwait f) ∧ trap (.barsync f)) ∧
    (∀ f : SYT, s.CanIssueScalar k t [f.s.toNat] → f.i = 16 → t.launch.cohort = false → trap (.bartest f)) ∧
    (∀ f : SYB, s.CanIssueScalar k t [] → (f.i = 16 → t.launch.cohort = true) → s.frozenAt t f.i = false →
      Tab.find t.pend f.i.toNat = none → trap (.barwait f)) ∧
    ∀ (f : SYB) (e : Nat), s.CanIssueScalar k t [] → t.launch.det = false → (f.i = 16 → t.launch.cohort = true) →
      s.frozenAt t f.i = false → Tab.find t.pend f.i.toNat = some e → ((s.settle t).barrierOf t f.i).episode ≤ e →
      let stop (i : Instr) : Prop :=
        exec i s = .next ((s.settle t).raise k { cause := 0x0F, pc := t.pc, info := ((encode i).getD 0).setWidth 64 })
      stop (.bararr f) ∧ (t.waitOnly = false → stop (.barsync f))

/-- R243, R247, R248, R301, R302: what takes the privilege, transaction-misuse and barrier-misuse traps. -/
def Obligations.PrivilegeAndMisuse : Prop := Claims.PrivilegeAndTransactionMisuse ∧ Claims.BarrierMisuseTraps


/-- R307, R308: outside DET, PHADV records the team's arrival in its gang's phase episode and waits where it stands; once
the episode has completed and no neighbour lies too far behind, it goes on; when the last live team arrives the gang's
phase count rises by one. -/
def Obligations.PhasesAdvance : Prop :=
  ∀ (f : SY) (s : State) (k : Nat) (t : Team) (g : Gang), t.launch.det = false → s.CanIssueScalar k t [] →
    t.txstat.active = false → s.gang t.gangKey = some g →
    (t.waitOnly = false → (g.phArrived = [] ∨ ∃ n ∈ g.live, n ∉ g.phArrived) →
      ∃ g', exec (.phadv f) s =
          .next ((s.setTeam k { t with phWait := some g.phEpisode, waitOnly := true }).setGang t.gangKey g') ∧
        if (∀ n ∈ g.live, n ∈ g.phArrived ∨ n = t.num) then
          g' = { g with phase := g.phase + 1, phEpisode := g.phEpisode + 1, phArrived := [] }
        else g' = { g with phArrived := g'.phArrived } ∧ ∀ n, n ∈ g'.phArrived ↔ n ∈ g.phArrived ∨ n = t.num) ∧
    (t.waitOnly = true → ∀ e, t.phWait = some e → g.phArrived = [] →
      (e < g.phEpisode → (t.launch.phase = 0 ∨ ∀ n ∈ neighbours t.launch, s.leadOk t g.phase n = true) → ∃ s' u, exec (.phadv f) s = .next s' ∧ s'.team k = some u ∧
        { t with phWait := none }.Retired u [] (t.pc + 4) ∧ s'.gang t.gangKey = some g) ∧
      (g.phEpisode ≤ e → ∃ s', exec (.phadv f) s = .next s' ∧ s'.team k = some t ∧ s'.gang t.gangKey = some g))

/-! ## Transactions -/

/-- R236, R239, R241, R242: TXBEGIN in user mode outside a transaction completes with the checkpoint taken and every lane of
EffWord a live participant; TXABORT fails every live lane for USER with its code; TXSTAT reads the status word; TXEND
leaves for the arbiter, where it arrives at once if no store of the team, nor one that its loads have read (R226), stands in
the core's queue, and not yet otherwise, path TX one higher, the team waiting for the outcome. -/
def Obligations.TransactionInstructions : Prop :=
  ∀ (s : State) (k : Nat) (t : Team),
    (∀ f, s.CanIssueScalar k t t.guardRegs → t.guardBeyond = false → t.txstat.active = false → t.sys = false →
      Claims.legalLanes t → ∃ u, exec (.txbegin f) s = .next (s.setTeam k u) ∧ u.txstat.active = true ∧
        u.txstat.reasons = 0 ∧ u.txstat.esc = decide (4 ≤ t.txstat.failrun.toNat) ∧ u.txstat.failrun = t.txstat.failrun ∧
        u.tx.restart = t.pc ∧ u.tx.ckS = t.s ∧ u.tx.ckMode = t.mode ∧ u.tx.ckFkey = t.fkey ∧ u.tx.ckRows = t.rows ∧
        u.tx.reads = [] ∧ u.tx.writes = [] ∧ u.tx.live = u.tx.parts ∧
        (∀ w b, w < t.lanes / 32 → b < 32 → u.tx.parts.getLsbD (32 * w + b) = (t.effWord w).getLsbD b) ∧
        u.s = t.s ∧ u.rows = t.rows ∧ u.mode = t.mode ∧ u.pc = t.pc + 4 ∧ u.retired = t.retiredNext) ∧
    (∀ f : SYA, s.CanIssueScalar k t [] → t.txstat.active = true →
      Claims.GoesOn (.txabort f) s k { t with
        tx := { t.tx with live := 0 }
        txstat := { t.txstat with
          reasons := if t.tx.live = 0 then t.txstat.reasons else t.txstat.reasons ||| 16, code := f.i } }) ∧
    (∀ f : SYS, s.CanIssueScalar k t [f.s.toNat] →
      Claims.WritesScalar (.txstat f) s k t [f.s.toNat] f.s.toNat
        (t.txstat.lowfail ++ t.txstat.count ++ (0 : BitVec 12) ++ t.txstat.failrun ++ BitVec.ofBool t.txstat.active ++
          BitVec.ofBool t.txstat.esc ++ BitVec.ofBool t.txstat.abort ++ t.txstat.reasons ++ t.txstat.code)) ∧
    (∀ f : SYS, Claims.legalLanes t → Claims.blockFits t (f.s.setWidth 7) →
      s.CanIssueScalar k t (Claims.blockRange t f.s.toNat) → t.txstat.active = true → t.counter pathTX < 255 →
      (t.buffers = true → Claims.parksAt (.txend f) s k t) ∧
      (t.buffers = false → ∃ (u : Team) (c : Commit) (l : List Commit),
        exec (.txend f) s = .next { s.setTeam k u with commits := l ++ [c] } ∧
        l.length = s.commits.length ∧
        (∀ (i : Nat) (x : Commit), s.commits[i]? = some x →
          ∃ a : Option Nat, l[i]? = some { x with arrived := a } ∧ (x.arrived.isSome = true → a = x.arrived)) ∧
        c.team = k ∧ c.op = t.opSeq ∧ c.d = f.s ∧
        (c.arrived.isSome = true ↔
          ∀ e ∈ (s.core t.core.toNat).queue, e.team ≠ k ∧ e.n ∉ t.seen ∧ e.n ∉ t.acquired) ∧
        u.await = some (.txend f.s) ∧ u.mayIssue = false ∧
        u.counter pathTX = t.counter pathTX + 1 ∧ u.tx = t.tx ∧ u.txstat = t.txstat ∧ u.s = t.s ∧ u.pc = t.pc + 4))

/-- R237, R238: outside DET and without escalation, the transactional load of a lane that does not fail reads the
lane's own earlier store to each byte, else the byte as the team reads it, and enters the lane's read set; a store
enters the lane's write set and no memory. A lane that overlaps a lower live lane's set, one of the two storing, or
whose line is homed on another module, has that reason, and fails at its access. -/
def Obligations.TransactionalAccesses : Prop :=
  ∀ (s : State) (k lane : Nat) (ea : W64) (n v : Nat) (loc : Loc) (page : Option Page) (t : Team),
    s.team k = some t → t.launch.det = false → t.txstat.esc = false →
    let tag := tagOf (t.asid.setWidth 16) ea.toNat
    let byte (i : Nat) : Byte := (t.tx.ownStore lane tag (ea.toNat + i)).getD (s.teamByte t (loc.add i))
    (s.txLoad k lane ea n loc).2 = leNat ((List.range n).map byte) ∧
    (∃ u, (s.txLoad k lane ea n loc).1.team k = some u ∧
      u = { t with tx := { t.tx with reads := u.tx.reads }, seen := u.seen, acquired := u.acquired } ∧
      (∀ i, i < n → ∃ r ∈ u.tx.reads, r.lane = lane ∧ r.tag = tag ∧ r.va = ea.toNat + i ∧ r.value = byte i) ∧
      (∀ r ∈ t.tx.reads, r ∈ u.tx.reads) ∧ s.KeepsMemory (s.txLoad k lane ea n loc).1 k) ∧
    (n ≤ 8 → ∃ u, s.txStore k lane ea n v = s.setTeam k u ∧ u = { t with tx := { t.tx with writes := u.tx.writes } } ∧
      ∀ i, i < n → u.tx.ownStore lane tag (ea.toNat + i) = some (Claims.byteOf (BitVec.ofNat 64 v) i)) ∧
    ∀ store,
      let why := s.txReasons t lane tag ea.toNat n store loc page
      let inSet (l i : Nat) (reads : Bool) : Prop :=
        if reads = true then ∃ r ∈ t.tx.reads, r.lane = l ∧ r.tag = tag ∧ r.va = ea.toNat + i
        else ∃ w ∈ t.tx.writes, w.lane = l ∧ w.tag = tag ∧ w.va = ea.toNat + i
      (why.getLsbD 1 = true ↔ ∃ l i, l < lane ∧ i < n ∧ t.tx.live.getLsbD l = true ∧
        (inSet l i false ∨ (store = true ∧ inSet l i true))) ∧
      (∀ va p, loc = .virt tag va → page = some p →
        (why.getLsbD 3 = true ↔ p.pa / 2 ^ 52 ≠ s.fabric.fmod.toNat)) ∧
      s.txFail k { lane := lane, ea := ea } n store = s.setTeam k (t.failLane lane (s.txWhy t lane ea n store)) ∧
      ∀ w, ¬ (t.failLane lane w).tx.live.getLsbD lane ∧ (t.failLane lane w).txstat.reasons = t.txstat.reasons ||| w

/-! ## The device's events -/

/-- ISSUE_SELECTION (R42, R358), CHECKER_CACHE_FILL (R191), STORE_QUEUE_DRAIN (R188) and MARGIN_WINDOW (R205): only a
team that runs on the core is checked next, and where none has unchecked passes or has yielded, and none has waited 48
cycles, a ready one is, of the highest priority (what makes a team ready is read in log 51); the wanted lines that L2 holds enter the checker cache, where they stay if no set of the directory overflows (R383); the queue's
oldest store is performed in its line, unless its CRC check between dies has failed twice (R435); the step of the
clock follows the mispredictions of the window. -/
def Sys2Proof.Claims.CoreEvents : Prop :=
  ∀ (s : State) (core : BitVec 8),
    let c := s.core core.toNat
    (∃ s', exec (.issueSelection core) s = .next s' ∧
      (∀ k, s'.cur = some k → ∃ t, (k, t) ∈ s.teams ∧ t.core = core ∧ t.stat = .running) ∧
      ((∀ e ∈ s.teams, e.2.core = core → e.2.yielded = none ∧ s.waited e.2 < 48 ∧ e.2.pipe.log = [] ∧ e.2.atHead = true) →
        ∀ k t, (k, t) ∈ s.teams → t.core = core → t.stat = .running → s.ready k t = true →
          ∃ k' t', s'.cur = some k' ∧ (k', t') ∈ s.teams ∧ t'.core = core ∧ s.ready k' t' = true ∧
            t.launch.priority.toNat ≤ t'.launch.priority.toNat)) ∧
    (∃ s', exec (.checkerCacheFill core) s = .next s' ∧ (s'.core core.toNat).fills = [] ∧
      (c.fills.length = 1 ∨ (c.fills.length ≤ 512 ∧ ∀ die, (s.entriesOf die).length + c.fills.length ≤ 16) → ∀ key ∈ c.fills, (Tab.find s.lines key).isSome = true → key ∈ (s'.core core.toNat).ckc) ∧
      (s'.core core.toNat).ckc.length ≤ 512 ∧ s'.teams = s.teams ∧
      (Tab.find s.relia.crcNext (core.toNat / 64) ≠ some .failed → s'.vmem = s.vmem ∧ s'.phys = s.phys)) ∧
    (∀ e rest tag va, c.queue = e :: rest → e.sent = false → e.loc = .virt tag va → va % 128 = 0 → va < 2 ^ 48 →
      s.homeModule tag va e.page = s.fabric.fmod.toNat → (Tab.find s.lines (lineKey tag va)).isSome = true →
      s.entryBlocked core.toNat e = false → (∀ b ∈ e.bytes, b.1 < 128) →
      Tab.find s.relia.crcNext (core.toNat / 64) ≠ some .failed →
      ∃ s', exec (.storeQueueDrain core) s = .next s' ∧
        (s'.core core.toNat).queue = c.queue.filter (fun x => x.n != e.n) ∧
        (∀ o, o < 128 → s'.readLoc (.virt tag (va + o)) =
          ((e.bytes.findRev? fun b => b.1 == o).map (·.2)).getD (s.readLoc (.virt tag (va + o)))) ∧
        (∀ l, Claims.realByte l → (∀ o, o < 128 → l ≠ .virt tag (va + o)) → s'.readLoc l = s.readLoc l) ∧
        s'.phys = s.phys) ∧
    (∃ s', exec (.marginWindow core) s = .next s' ∧
      let n := min 255 (c.miscomp - c.windowBase).toNat
      let q := if n = 0 then c.quiet + 1 else 0
      let c' := s'.core core.toNat
      c'.misrate.toNat = n ∧ c'.windowBase = c.miscomp ∧ c'.miscomp = c.miscomp ∧ c'.quiet = q ∧
        (16 ≤ (s.coreRail core.toNat).phok →
          c'.step =
            if c.adapt = false then c.step
            else if c.thresh.toNat < n ∧ c.step < c.stepmax then c.step + 1
            else if 16 ≤ q ∧ c.step ≠ 0 then c.step - 1
            else c.step))

/-- `u`, of which the transaction of `t` has been aborted, stands at the restart point (R244); in system mode, which nothing
interrupts (R266), ERET goes there (log 111). -/
def Sys2Proof.Claims.StandsAtRestart (t u : Team) : Prop :=
  (t.sys = false → u.pc = t.tx.restart ∧ u.pass = 0) ∧
    (t.sys = true → u.pc = t.pc ∧ u.sys = true ∧ u.mode = t.mode ∧ u.trappc = t.tx.restart.setWidth 64 ∧ u.trappass = 0)

/-- PREEMPTION_REQUEST (R261), PREEMPTION_ENTRY (R262), FORCED_PREEMPTION and SYSTEM_MODE_OVERRUN (R266),
RESTORE_ENTRY (R267), PREEMPT (R357) and DEADLOCK_BREAKER (R201, R202). Which of the gangs placed in one cycle the breaker
takes as placed last is the model's choice (log 93), and so is what an abort does to a team in system mode (log 111). -/
def Sys2Proof.Claims.PreemptionEvents : Prop :=
  ∀ (s : State),
    (∀ gang g reason, s.gang gang = some g → g.stat = .resident → g.preq = none →
      (s.isDet g = true ∨ (reason ≠ .breaker ∧ s.limitOf g ≠ 0) →
        ∃ r, exec (.preemptionRequest gang reason) s = .next (s.setGang gang
            { g with preq := some r, rowBound := g.rowBound || reason == .breaker }) ∧
          r.reason = reason ∧ r.forced = false ∧ r.taken = false ∧ r.limit = s.limitOf g ∧
          r.deadline = s.cycle.toNat + (if reason = .breaker then 0 else r.limit * 4000)) ∧
      (s.isDet g = false → reason = .breaker ∨ s.limitOf g = 0 →
        ∃ s' g' r, exec (.preemptionRequest gang reason) s = .next s' ∧ s'.gang gang = some g' ∧ g'.preq = some r ∧
          r.reason = reason ∧ r.forced = true)) ∧
    (∀ gang g r, s.gang gang = some g → g.stat = .resident → g.preq = some r → r.taken = false → r.forced = false →
      s.isDet g = false → s.defers gang g = false → ∃ s', exec (.preemptionEntry gang) s = .next s' ∧
        ∀ k t, (k, t) ∈ s.teams → s.team k = some t → t.gangKey = gang → t.stat = .running → ∃ u, s'.team k = some u ∧
          u.trap = some { cause := 0x08, pc := t.pc, pass := t.pass, waitOnly := t.waitOnly } ∧ u.park = none ∧
          u.mayIssue = false ∧ u.s = t.s ∧ u.rows = t.rows ∧ u.pc = t.pc) ∧
    (∀ gang g r, s.gang gang = some g → g.stat = .resident → g.preq = some r → r.taken = false → r.forced = false →
      s.isDet g = false → r.deadline ≤ s.cycle.toNat → ∃ s' g' r', exec (.forcedPreemption gang) s = .next s' ∧
        s'.gang gang = some g' ∧ g'.preq = some r' ∧ r'.forced = true ∧ r'.reason = r.reason ∧
        ∀ k t, (k, t) ∈ s.teams → s.team k = some t → t.gangKey = gang → t.txstat.active = true →
          ∃ u, s'.team k = some u ∧ u.txstat.active = false ∧ u.s = t.tx.ckS ∧ Claims.StandsAtRestart t u) ∧
    (∀ k t g r, s.team k = some t → s.gang t.gangKey = some g → g.preq = some r → r.taken = false → r.forced = true →
      t.sys = true → t.inSave = false → t.stat = .running → t.num ∉ r.overrun →
      r.deadline + r.limit * 4000 ≤ s.cycle.toNat → ∃ s' g' r', exec (.systemModeOverrun k) s = .next s' ∧
        s'.gang t.gangKey = some g' ∧ g'.preq = some r' ∧ r'.overrun = t.num :: r.overrun ∧ s'.team k = some t) ∧
    (∀ k t g, s.team k = some t → s.gang t.gangKey = some g → g.stat = .resident → t.stat = .saved →
      ∃ u, exec (.restoreEntry k) s = .next (s.setTeam k u) ∧ u.stat = .running ∧ u.sys = true ∧ u.mode = 2 ∧
        u.rows = [] ∧ u.pass = 0 ∧ u.saveinfo.getLsbD 2 = true ∧ u.saveinfo.getLsbD 1 = g.leads t ∧
        u.pc = (((s.core t.core.toNat).trapbase &&& 0xFFFFFFFFF000) + 0x7C0).setWidth 48 ∧ u.saveptr = t.saveptr ∧
        u.trapcause = t.trapcause ∧ u.trappc = t.trappc) ∧
    (∀ (v : W64) key g seq q, s.registersOpen = true → s.gang key = some g → g.seq = seq → g.stat = .resident → g.preq = none →
      v.toNat / 2 ^ 13 % 8 = 0 → (s.grids.find? fun e => e.2.number.toNat == v.toNat % 2 ^ 12 && e.2.stat == .started) = some (seq, q) →
      (v.getLsbD 12 = true ∨ g.num = v.toNat / 2 ^ 16) → ∃ s' g' r, exec (.preempt v) s = .next s' ∧
        s'.gang key = some g' ∧ g'.preq = some r ∧ r.reason = .host) ∧
    ∀ core : BitVec 8,
      let stuck (e : Nat × Team) : Prop := e.2.core = core ∧ e.2.stat = .running ∧ s.rowStalled e.2 = true
      ((s.cycle - (s.core core.toNat).actedAt).toNat < 4096 ∨ (∀ e ∈ s.teams, ¬ stuck e) →
        exec (.deadlockBreaker core) s = .next s) ∧
      (4096 ≤ (s.cycle - (s.core core.toNat).actedAt).toNat → (∀ e ∈ s.teams, e.2.core = core → e.2.launch.det = false) →
        ((∃ e ∈ s.teams, stuck e ∧ e.2.txstat.active = true) → ∃ s',
          exec (.deadlockBreaker core) s = .next s' ∧
            ∀ k t, (k, t) ∈ s.teams → s.team k = some t → stuck (k, t) → t.txstat.active = true →
              ∃ u, s'.team k = some u ∧ u.txstat.active = false ∧ Claims.StandsAtRestart t u ∧ u.s = t.tx.ckS) ∧
        ((∃ e ∈ s.teams, stuck e) → (∀ e ∈ s.teams, stuck e → e.2.txstat.active = false) →
          ∀ key g, s.lastPlaced core.toNat = some key → s.gang key = some g → g.stat = .resident → g.preq = none →
            s.isDet g = false →
            ∃ s' g' r, exec (.deadlockBreaker core) s = .next s' ∧ s'.gang key = some g' ∧ g'.rowBound = true ∧
              g'.preq = some r ∧ r.reason = .breaker ∧ r.forced = true ∧
              (s'.core core.toNat).brkcnt = (s.core core.toNat).brkcnt + 1))

/-- QTAIL (R334), PACKET_ACCEPTANCE (R336), DEPENDENCE_EVALUATION (R339), SELECTION and EFFECTIVE_LEVEL_AGING (R345) and
GRID_RETIREMENT (R40, R341, R343). That a slot which cannot be read, or is poisoned, gives reason 1 (log 48), and that a packet
is accepted once its journal entry has been (log 49), are the model's reading. -/
def Sys2Proof.Claims.FrontEndEvents : Prop :=
  ∀ (s : State),
    (∀ (q : BitVec 6) (v : W64), s.registersOpen = true → ∃ s', exec (.qtail q v) s = .next s' ∧
      (s'.queue q =
        let x := s.queue q
        if x.devok = true ∨ 2 ^ x.log < (v.setWidth 32 - x.head).toNat then { x with badtail := true }
        else { x with tail := v.setWidth 32 }) ∧
      (∀ p, p ≠ q → s'.queue p = s.queue p) ∧ s'.teams = s.teams ∧ s'.grids = s.grids) ∧
    (∀ (q : BitVec 6) n bytes bad s₁ s₂, (s.queue q).en = true → (s.queue q).head ≠ (s.queue q).tail →
      s.queueBlocked (s.queue q) = false → s.journal.en = true → s.security.bootFailed = false →
      s.journalBusy s.front.nextSeq = false → s.freeNumber = some n → s.front.accepting = none →
      s.frontRead 0 none ((s.queue q).slotAt (s.queue q).head.toNat) 128 = .ok (bytes, bad) s₁ →
      let g₀ := s₁.gridOf q (s₁.queue q) n bytes !bad
      let journal := s₁.frontWrite 0 g₀.seq 1 (s₁.journal.entryAt g₀.seq)
        (journalEntry g₀ g₀.journaled s₁.timeNs (shake256 bytes))
      (journal = .ok () s₂ →
        ∃ s' g, exec (.packetAcceptance q) s = .next s' ∧ s'.grid s₁.front.nextSeq = some g ∧ g.number = BitVec.ofNat 12 n ∧
          g.queue = q ∧ g.packet = readPacket bytes ∧
          (bad = true ∨ (readPacket bytes).valid bytes = false → g.reason = 1) ∧
          (s'.queue q).head = (s₁.queue q).head + 1 ∧ s'.front.nextSeq = s₁.front.nextSeq + 1) ∧
      (journal = .wait s₂ → ∃ s', exec (.packetAcceptance q) s = .next s' ∧ s'.queue q = s₂.queue q ∧
        s'.grids = s₂.grids ∧ s'.front.accepting = some { queue := q, number := n, bytes := bytes, readable := !bad })) ∧
    (∀ seq q, (s.grids.map (·.1)).Nodup → (∀ e ∈ s.grids, e.2.seq = e.1) → s.grid seq = some q → q.stat = .accepted →
      q.reason = 0 → q.dispatching = false → q.parent = none → q.metAt = none → q.packet.dep0Addr = 0 →
      q.packet.dep1Addr = 0 → ∃ s' g, exec .dependenceEvaluation s = .next s' ∧ s'.grid seq = some g ∧
        g.met0 = true ∧ g.met1 = true ∧ g.metAt = some s.cycle.toNat ∧ g.reason = 0 ∧ s'.teams = s.teams) ∧
    ((∀ e ∈ s.grids, e.2.starting = false) → s.dispatchingCount < 8 → ∀ q, s.nextHead = some q → s.grid q.seq = some q →
      ∃ s' g, exec .selection s = .next s' ∧ s'.grid q.seq = some g ∧ g.dispatching = true ∧
        s'.front.lastQueue.getD q.level 0 = q.queue) ∧
    (∀ seq q m, s.grid seq = some q → q.metAt = some m → q.stat = .accepted → q.dispatching = false → ∃ s',
      exec .effectiveLevelAging s = .next s' ∧
        s'.grid seq = some { q with aged := min 3 ((s.cycle.toNat - m) / 40000000) } ∧ s'.teams = s.teams) ∧
    (∀ seq q s₁ s₂ s₃, s.grid seq = some q → q.seq = seq → s.mayRetire q = true → s.retireJournal q = .ok () s₁ →
      s₁.retireReport q = .ok () s₂ → s₂.retireWord q = .ok () s₃ → (s₃.grid seq).isSome = true →
      ∃ s' g, exec (.gridRetirement seq) s = .next s' ∧ s'.grid seq = some g ∧ g.stat = .retired ∧
        ∀ p pg, q.parent = some p → p ≠ seq → q.reason ≠ 0 → s₃.grid p = some pg → pg.stat ≠ .retired →
          ∃ pg', s'.grid p = some pg' ∧ (pg.reason = 0 → pg'.reason = 6) ∧ (pg.reason ≠ 0 → pg'.reason = pg.reason))

/-- GANG_OFFER and GANG_REOFFER (R346, R347), TEAM_START (R28), TEAM_STOP (R344), TEAM_END (R39, R40, R427),
MIGRATION_SCAN (R356) and PRIORITY_PREEMPTION (R357). The order of the offers that are due (log 46), and that LLMIGR counts a
migration when it is requested (log 59), are the model's choices. -/
def Sys2Proof.Claims.GangEvents : Prop :=
  ∀ (s : State),
    (∀ seq q, (s.offersDue.find? fun e => !e.2) = some (.next seq, false) → s.grid seq = some q →
      let key := gangKeyOf seq q.nextGang
      ((s.makeOffer (.next seq)).2 = true → ∃ s' g q', exec .gangOffer s = .next s' ∧ s'.gang key = some g ∧
        g.stat = .placed ∧ g.placedAt = s.cycle.toNat ∧ s'.grid seq = some q' ∧ q'.nextGang = q.nextGang + 1 ∧
        (q.nextGang + 1 = q.packet.gangs → q'.dispatching = false)) ∧
      ((s.makeOffer (.next seq)).2 = false → ∃ s' g, exec .gangOffer s = .next s' ∧ s'.gang key = some g ∧
        g.waiting = true)) ∧
    (∀ e rest, s.offersDue = e :: rest → (s.offersDue.any (·.2)) = true → (s.makeOffer e.1).2 = true →
      exec .gangReoffer s = .next (s.makeOffer e.1).1) ∧
    ((s.offersDue.any (·.2)) = false → exec .gangReoffer s = .next s) ∧
    (∀ key g q, s.gang key = some g → s.grid g.seq = some q → g.stat = .placed → (s.teamsOf key) = [] → q.reason = 0 →
      (g.groups.flatMap (·.2)).Nodup → ∃ s', exec (.teamStart key) s = .next s' ∧
        (∃ g', s'.gang key = some g' ∧ g'.stat = .resident) ∧
        ∀ e ∈ g.groups, ∀ n ∈ e.2, ∃ t, s'.team (teamKeyOf q.seq g.num n) = some t ∧ t.num = n ∧ t.stat = .running ∧
          t.pc = q.packet.entry.setWidth 48 ∧ t.pass = 0 ∧ t.s = Vector.replicate 64 0 ∧ t.h = Vector.replicate 8 0 ∧
          t.rows = [] ∧ t.mode = 2 ∧ t.sys = false ∧ t.fpflags = 0 ∧ t.fkey = 0 ∧ t.retired = 0 ∧ t.args = q.args ∧
          t.lanes = 2 ^ q.packet.lanesLog ∧ t.asid = q.asid.setWidth 64 ∧ t.txstat.active = false ∧
          ∀ p, t.counter p = 0) ∧
    (∀ k t q, s.team k = some t → s.grid t.seq = some q → q.reason ≠ 0 → q.stat = .started → t.stat = .running →
      ∃ s' u, exec (.teamStop k) s = .next s' ∧ s'.team k = some u ∧ u.stat = .stopped ∧ u.mayIssue = false ∧ u.s = t.s ∧
        u.rows = t.rows ∧ s'.phys = s.phys ∧ s'.vmem = s.vmem) ∧
    (∀ k t g, s.team k = some t → (t.stat = .exited ∨ t.stat = .stopped) → s.quietTeam k t = true →
      s.gang t.gangKey = some g → ∃ s' g' u, exec (.teamEnd k) s = .next s' ∧ s'.team k = some u ∧ u.stat = .ended ∧
        u.rows = [] ∧ u.h = Vector.replicate 8 0 ∧ (∀ p, u.counter p = 0) ∧ u.s = t.s ∧ u.mode = t.mode ∧
        u.fpflags = t.fpflags ∧ u.mxflags = t.mxflags ∧ u.retired = t.retired ∧ u.detcause = t.detcause ∧
        u.detlog = t.detlog ∧ s'.cur ≠ some k ∧
        s'.gang t.gangKey = some g' ∧ t.num ∉ g'.remaining ∧ t.num ∉ g'.live ∧
        (g.stat = .resident → (∀ n ∈ g.remaining, n = t.num) → g.windows = [] → g'.stat = .ended)) ∧
    (∀ (die : BitVec 2) key p g, (s.die die.toNat).migen = true → (s.die die.toNat).migrating = none →
      s.firstMigration die.toNat (byAge (s.residentsOf die.toNat)) = some (key, p) → s.gang key = some g →
      g.stat = .resident → g.preq = none → ∃ s' g' r, exec (.migrationScan die) s = .next s' ∧ s'.gang key = some g' ∧
        g'.hold = some p ∧ g'.preq = some r ∧ r.reason = .migration ∧ (s'.die die.toNat).migrating = some key ∧
        (s'.die die.toNat).llmigr = (s.die die.toNat).llmigr + 1) ∧
    (∀ (die : BitVec 2) v g, ((s.gangs.filter fun e => s.longWait e.2).findSome? fun e =>
        s.victimFor die.toNat e.1 e.2) = some v → s.gang v = some g → g.stat = .resident → g.preq = none →
      ∃ s' g' r, exec (.priorityPreemption die) s = .next s' ∧ s'.gang v = some g' ∧ g'.preq = some r ∧
        r.reason = .scheduler)

/-- R28, R39 to R42, R188, R191, R201, R205, R261 to R267, R334 to R346, R356 to R358: the events of the cores, of
pre-emption, of the launch front end and of the gangs and their teams have their effects. Logs 46, 48, 49, 51, 59 and 93 are
the model's choices and readings in it. -/
def Obligations.CoreAndLaunchEvents : Prop :=
  Claims.CoreEvents ∧ Claims.PreemptionEvents ∧ Claims.FrontEndEvents ∧ Claims.GangEvents

/-- RESERVATION_GRANT (R268, R278, R282 to R285, R290, R291), STARVATION (R284), GATHER_DONE (R277), SUBARRAY_WAKE and
SUBARRAY_GATING (R291): the grantable entry of highest priority is granted first; MZERO clears both its halves, MLDACC
loads them; a pass takes a free Taper array and runs, or waits for its sub-arrays to wake. A sub-array that has been idle for
MGATE.DELAY ns, taken as 4 cycles each (log 2), is gated. -/
def Sys2Proof.Claims.MatrixEvents : Prop :=
  ∀ (s : State) (cluster : BitVec 6),
    let cl := cluster.toNat
    let l := (s.cluster cl).table
    (s.grantable l [] l = [] → exec (.reservationGrant cluster) s = .next s) ∧
    (∀ e rest, grantOrder (s.grantable l [] l) = e :: rest → (l.map fun x => opName x.team x.op).Nodup →
      e ∈ l ∧ (∀ x ∈ s.grantable l [] l, x.priority ≤ e.priority) ∧
      (∀ t g, e.kind = .mzero → s.team e.team = some t → s.gang e.gang = some g → e.tile < 2 ^ 20 → ∃ s' g',
        exec (.reservationGrant cluster) s = .next s' ∧ s'.gang e.gang = some g' ∧
        g'.half e.lead.toNat e.tile = List.replicate 4096 0 ∧ g'.half (followerOf e.lead) e.tile = List.replicate 4096 0 ∧
        g'.tileBad e = false ∧ { e with stat := .acted } ∈ (s'.cluster cl).table ∧
        s'.teams = s.teams ∧ s'.vmem = s.vmem ∧ s'.phys = s.phys) ∧
      (∀ t g s₁ ps, e.kind = .mldacc → s.team e.team = some t → s.gang e.gang = some g → e.tile < 2 ^ 20 →
        s.threadReady (e.thread t) .load e.rowExtents = .ready s₁ ps → s₁.gang e.gang = some g →
        s₁.clusters = s.clusters → s₁.threadPoison (e.thread t) e.rowExtents = [] →
        Tab.find s₁.relia.crcNext (s₁.dieOfTeam e.team) = none → ∃ s' g',
        exec (.reservationGrant cluster) s = .next s' ∧ s'.gang e.gang = some g' ∧
        (∀ i j, i < 64 → j < 64 →
          (g'.half e.lead.toNat e.tile)[64 * i + j]? = (s₁.loadRow (e.thread t) e i)[j]? ∧
          (g'.half (followerOf e.lead) e.tile)[64 * i + j]? = (s₁.loadRow (e.thread t) e i)[64 + j]?) ∧
        { e with stat := .acted } ∈ (s'.cluster cl).table) ∧
      (e.kind.isPass = true → ∃ s' a, exec (.reservationGrant cluster) s = .next s' ∧
        let gated := (e.pair.filter fun n => !(s.core (4 * cl + n)).awake).length
        (a = 0 ∨ a = 1) ∧ (∀ x ∈ l, x.holds = true → x.taper ≠ a) ∧
        { e with stat := if gated = 0 then .running else .waking, taper := a } ∈ (s'.cluster cl).table ∧
        (s'.cluster cl).mxpass = (s.cluster cl).mxpass + 1 ∧
        (s'.cluster cl).mxwake = (s.cluster cl).mxwake + BitVec.ofNat 64 gated ∧
        s'.teams = s.teams ∧ s'.gangs = s.gangs ∧ s'.cores = s.cores)) ∧
    (∀ op e, s.mEntry cl op = some e → e.stat = .waiting →
      (s.timeNs < e.since + 2000 → exec (.starvation cluster op) s = .next s) ∧
      (e.since + 2000 ≤ s.timeNs → ∃ s', exec (.starvation cluster op) s = .next s' ∧
        { e with starving := true } ∈ (s'.cluster cl).table ∧ s'.teams = s.teams ∧ s'.gangs = s.gangs)) ∧
    (∀ op e t s₁ ps, s.mEntry cl op = some e → s.team e.team = some t → e.kind = .mmag → e.gathered = false →
      s.forkDone t.core.toNat e.team e.fork e.op = true →
      let h := e.thread t
      let xs := e.aRows.map (e.fb.a.kCodes e.fb.koff)
      s.threadReady h .load xs = .ready s₁ ps → s₁.clusters = s.clusters → s₁.threadPoison h xs = [] →
      Tab.find s₁.relia.crcNext (s₁.dieOfTeam e.team) = none → e.stat = .waiting →
      ∃ s' e', exec (.gatherDone cluster op) s = .next s' ∧ e' ∈ (s'.cluster cl).table ∧ e'.team = e.team ∧ e'.op = e.op ∧
        e'.gathered = true ∧ e'.poisonSeen = e.poisonSeen ∧
        ∀ i x j, xs[i]? = some x → j < x.len →
          Memory.read e'.latch (64 * i + j) = s₁.readLoc (s₁.threadLoc h (x.addr + j))) ∧
    (∀ op e, s.mEntry cl op = some e → e.stat = .waking → ∃ s', exec (.subarrayWake cluster op) s = .next s' ∧
      (∀ n ∈ e.pair, (s'.core (4 * cl + n)).awake = true) ∧ { e with stat := .running } ∈ (s'.cluster cl).table ∧
      (∀ c, (∀ n ∈ e.pair, c ≠ 4 * cl + n) → s'.core c = s.core c) ∧ s'.teams = s.teams) ∧
    ∀ core : BitVec 8,
      let idle := (s.cycle - (s.core core.toNat).idleAt).toNat
      let delay := 4 * ((s.core core.toNat).mgate.toNat % 2 ^ 20)
      ((s.core core.toNat).mgate.getLsbD 31 = true ∨ idle < delay → exec (.subarrayGating core) s = .next s) ∧
      ((s.core core.toNat).mgate.getLsbD 31 = false → delay ≤ idle →
        (∀ e ∈ (s.cluster (core.toNat / 4)).table, e.holds = true → core.toNat % 4 ∉ e.pair) → ∃ s',
        exec (.subarrayGating core) s = .next s' ∧ (s'.core core.toNat).awake = false ∧
        (∀ c, c ≠ core.toNat → s'.core c = s.core c) ∧ s'.teams = s.teams ∧ s'.clusters = s.clusters)

/-- TAPER_VERDICT (R275, R287, R289, R292, R293), COPY_EXECUTION (R318, R319) and ENGINE_COMPLETION (R167, R169, R287,
R324): an attempt whose sums are exact is committed to both halves and its entry freed once its counter is lowered (R282);
one whose residue check fired is replayed; the last element of a copy is stored at its place; a command that has acted completes. -/
def Sys2Proof.Claims.EngineResults : Prop :=
  ∀ (s : State) (cluster : BitVec 6),
    let cl := cluster.toNat
    (∀ op e t g s₁ ps, s.mEntry cl op = some e → s.team e.team = some t → e.kind.isPass = true → e.stat = .running →
      e.tile < 2 ^ 20 →
      let h := e.thread t
      let p : PassData := { a := s₁.passA h e, b := s₁.passB h e }
      s.threadReady h .load e.reads = .ready s₁ ps → s₁.clusters = s.clusters → s₁.teams = s.teams →
      s₁.gang e.gang = some g → s₁.threadPoison h e.reads = [] → e.poisonSeen = false → t.launch.det = false →
      Tab.find s₁.relia.crcNext (s₁.dieOfTeam e.team) = none →
      (∀ i q, (p.rowGroup i q).1.terms.length ≤ 16) →
      (e.replays = 0 → ∃ s' g' u, exec (.taperVerdict cluster op [] false) s = .next s' ∧ s'.gang e.gang = some g' ∧
        (∀ i j, i < 64 → j < 64 →
          (g'.half e.lead.toNat e.tile)[64 * i + j]? =
            ((g.half e.lead.toNat e.tile)[64 * i + j]?).map (fun c => BitVec.ofNat 32 (p.element [] i j c).1) ∧
          (g'.half (followerOf e.lead) e.tile)[64 * i + j]? =
            ((g.half (followerOf e.lead) e.tile)[64 * i + j]?).map
              (fun c => BitVec.ofNat 32 (p.element [] i (64 + j) c).1)) ∧
        s'.team e.team = some u ∧ u = { t with mxflags := u.mxflags, paths := u.paths } ∧
        (∀ x ∈ (s'.cluster cl).table, x.team = e.team → x.op = e.op → x.stat = .done ∧ u.inFlight e.op = true) ∧
        (∀ q, u.counter q = (lowerFlights e.op t.paths[q]).length)) ∧
      (e.replays < 2 → ∃ s' first, exec (.taperVerdict cluster op [] true) s = .next s' ∧
        { e with replays := e.replays + 1, firstFail := first } ∈ (s'.cluster cl).table ∧
        (s'.cluster cl).mxreplay = (s.cluster cl).mxreplay + 1 ∧ s'.gang e.gang = some g)) ∧
    (∀ c t s₂ s₃ sl dl dl₀, ((s.cluster cl).copies.find? fun x => !x.acted) = some c → s.team c.team = some t →
      s.copyCurrent cl = true → s.forkDone t.core.toNat c.team c.fork c.op = true → c.desc.total - c.next = 1 →
      c.kind ≠ .cpyq → c.word = none → c.latch = none → c.away = [] → c.awayBad = [] →
      t.launch.det = false → (s.gang c.gang).isSome = true →
      let src := c.place c.src c.desc.sstride c.desc.sframe c.next
      let dst := c.place c.dst c.desc.dstride c.desc.dframe c.next
      let size := c.desc.size
      let at_ := if 4 ≤ size then dst.2 else dst.2 / 4 * 4
      s.copyReach c cl src.1 .load src.2 = .here s₂ sl →
      s₂.copyReach c cl dst.1 .store dst.2 = .here s₃ dl → s₃.clusters = s.clusters → s₃.gangs = s.gangs →
      s₃.poisonLoc sl = false → s₃.fabric.peerLines = [] → Tab.find s₃.relia.crcNext (t.core.toNat / 64) = none →
      s₃.copyReach c cl dst.1 .store at_ = .here s₃ dl₀ → dl₀.add (dst.2 - at_) = dl →
      dl₀.inLine + (dst.2 - at_) + size ≤ 128 → (size < 4 → sl.word.2 + size ≤ 4) → Claims.realByte sl → Claims.realByte dl → ∃ s' c',
        exec (.copyExecution cluster) s = .next s' ∧ c' ∈ (s'.cluster cl).copies ∧ c'.team = c.team ∧ c'.op = c.op ∧
        c'.acted = true ∧ c'.stop = c.stop ∧
        (∀ i, i < size → s'.readLoc (dl.add i) = s₃.readLoc (sl.add i)) ∧
        ∀ l, Claims.realByte l → (∀ i, i < size → l ≠ dl.add i) → s'.readLoc l = s₃.readLoc l) ∧
    (∀ op e t, s.mEntry cl op = some e → s.team e.team = some t → e.stat = .acted → s.outPending e.team e.op = false →
      ∃ s' u, exec (.engineCompletion cluster op) s = .next s' ∧ s'.team e.team = some u ∧
        u = { t with mxflags := t.mxflags ||| e.flags.setWidth 64, paths := u.paths } ∧
        (∀ q, u.counter q = (lowerFlights e.op t.paths[q]).length) ∧
        (∀ x ∈ (s'.cluster cl).table, x.team = e.team → x.op = e.op → x.stat = .done ∧ u.inFlight e.op = true) ∧
        s'.gangs = s.gangs ∧ s'.vmem = s.vmem) ∧
    (∀ op c t, s.mEntry cl op = none →
      ((s.cluster cl).copies.find? fun x => opName x.team x.op == op) = some c → s.team c.team = some t →
      c.acted = true → c.stop = none → s.outPending c.team c.op = false →
      ∃ s' u, exec (.engineCompletion cluster op) s = .next s' ∧ s'.team c.team = some u ∧
        u = { t with mxflags := t.mxflags ||| c.flags.setWidth 64, paths := u.paths } ∧
        (∀ q, u.counter q = (lowerFlights c.op t.paths[q]).length) ∧
        (∀ x ∈ (s'.cluster cl).copies, ¬ (x.team = c.team ∧ x.op = c.op)) ∧ s'.gangs = s.gangs ∧ s'.vmem = s.vmem) ∧
    (∀ op r t s₁ a d, s.mEntry cl op = none →
      ((s.cluster cl).copies.find? fun x => opName x.team x.op == op) = none →
      (s.reds.find? fun x => opName x.team x.op == op) = some r → s.team r.team = some t → r.acted = false →
      s.forkDone t.core.toNat r.team r.fork r.op = true → r.steps = [(a, d)] → r.failed = false →
      s.destinations r.team r.asid .store (!r.sys) r.pages [a / 128] = .ready s₁ [] →
      Tab.find s₁.relia.crcNext (t.core.toNat / 64) = none →
      let loc := s₁.locOf (tagOf r.asid a) a
      let n := redWidth r.form
      s₁.poisonLoc loc = false → t.launch.det = false → a < 2 ^ 48 → loc.inLine + n ≤ 128 →
      (∀ i, i < n → s₁.locOf (tagOf r.asid a) (a + i) = loc.add i) →
      ∃ s', exec (.engineCompletion cluster op) s = .next s' ∧
        leNat ((List.range n).map fun i => s'.readLoc (loc.add i)) =
          (redStep r.form (leNat ((List.range n).map fun i => s₁.readLoc (loc.add i))) d).1 % 256 ^ n ∧
        ∀ l, Claims.realByte l → (∀ i, i < n → l ≠ loc.add i) → s'.readLoc l = s₁.readLoc l) ∧
    -- completions are counted in issue order: the oldest lowers its counter (R170)
    ∀ (op : Nat) (rest : List Flight), (∀ f ∈ rest, f.id ≠ op) → (∀ f, rest.head? = some f → f.done = false) →
      lowerFlights op ({ id := op, done := false } :: rest) = rest

/-- R292: a row of an attempt whose claimed sums are all exact passes the Taper check; with one wrong sum in the row it
fails, unless 2^17 − 1 divides the error. -/
def Obligations.TaperCheckFindsErrors : Prop :=
  ∀ (p : PassData) (q i : Nat), (p.rowGroup i q).1.ints.length ≤ 16 →
    p.rowPasses [] q i = true ∧
    ∀ (j : Nat) (e : Int), j < 128 → (p.rowPasses [{ q := q, i := i, j := j, e := e }] q i = true ↔ 131071 ∣ e)

/-- PHASE_RELEASE (R308), PUBLISH_COMPLETION (R311), WINDOW_WITHDRAWAL (R312, R313), TX_COMMIT (R239 to R241) and
DET_BOUNDARY (R362, R366, R368). That a boundary is several events, during which `Team.boundary` keeps the teams, is the
model's (log 40). -/
def Sys2Proof.Claims.TeamEvents : Prop :=
  ∀ (s : State),
    (∀ k t, s.team k = some t → t.stat = .running → t.sys = false → t.waitOnly = true → t.phWait.isSome = true →
      t.trap = none → t.launch.det = false → (s.modGang t.gangKey Gang.settlePhase).phaseReady t = true → ∃ s' u,
      exec (.phaseRelease k) s = .next s' ∧ s'.team k = some u ∧ { t with phWait := none }.Retired u [] (t.pc + 4) ∧
      (∀ j, j ≠ k → s'.team j = s.team j)) ∧
    (∀ k t g base w home, s.team k = some t → t.await = some (.publish base) → s.gang t.gangKey = some g →
      (g.windows.find? fun w => w.base == base && w.group == t.group && w.tag == tagOf (t.asid.setWidth 16) base &&
        w.stat == .opening) = some w →
      ((s.evictRange w).keepPages w.tag w.base w.len (!t.sys)).windowHome (!t.sys) w (List.range (w.len / 128)) =
        some home → ∃ s' g' u,
      exec (.publishCompletion k) s = .next s' ∧ s'.gang t.gangKey = some g' ∧
      { w with stat := .standing, home := home } ∈ g'.windows ∧
      s'.team k = some u ∧ u = { t with await := none, buf := u.buf } ∧
      ∀ n, n < w.len / 128 → Tab.find s'.lines (lineKey w.tag (w.base + 128 * n)) = none) ∧
    (∀ gang g base w, s.gang gang = some g → g.stat = .resident → g.remaining ≠ [] →
      (∃ e ∈ s.teams, e.2.gangKey = gang ∧ e.2.stat ≠ .saved ∧ e.2.stat ≠ .ended) →
      (g.windows.find? fun w => w.base == base && w.stat == .closing) = some w → s.ownerBusy gang w = false → ∃ s' g',
      exec (.windowWithdrawal gang base) s = .next s' ∧ s'.gang gang = some g' ∧
      g'.windows = g.windows.filter (· != w) ∧
      ∀ k t, s.team k = some t → t.gangKey = gang → t.await = some (.unpub base w.tag) → ∃ u, s'.team k = some u ∧
        u = { t with await := none, buf := u.buf }) ∧
    (∀ (cluster : BitVec 6) c rest t s₁,
      (s.commits.filter fun c => c.cluster == cluster && c.arrived.isSome).foldr (insertCommit s) [] = c :: rest →
      s.team c.team = some t → s.presentLines c.team t t.tx.lines [] = .ready s₁ [] → s₁.losers c.team t [] = [] →
      t.launch.det = false → t.tx.live = t.tx.parts → Claims.legalLanes t → Claims.blockFits t (c.d.setWidth 7) →
      s₁.commits = s.commits → Tab.find s₁.relia.crcNext (t.core.toNat / 64) ≠ some .failed → ∃ s' u,
        exec (.txCommit cluster) s = .next s' ∧ s'.team c.team = some u ∧
        u.txstat.active = false ∧ u.txstat.reasons = t.txstat.reasons ∧
        u.txstat.count.toNat = ((List.range 1024).filter (t.tx.live.getLsbD ·)).length ∧
        (t.txstat.reasons &&& 1 = 0 → u.txstat.failrun = 0) ∧ u.await = none ∧ u.rows = t.rows ∧ u.pc = t.pc ∧
        (∀ j, j < t.lanes → Claims.blockBit u c.d.toNat j = t.tx.live.getLsbD j) ∧
        c ∉ s'.commits ∧
        ∀ w ∈ t.tx.writes, t.tx.live.getLsbD w.lane = true → w.va < 2 ^ 48 →
          (∀ x ∈ t.tx.writes, x.va < 2 ^ 48 ∧ (s₁.locOf x.tag x.va = s₁.locOf w.tag w.va → x.value = w.value)) →
          s'.readLoc (s₁.locOf w.tag w.va) = w.value) ∧
    ∀ seq q, s.grid seq = some q → q.packet.flags.getLsbD 0 = true →
      (q.serial = false → s.boundaryDue q = true → s.bufferedCount seq = 0 → s.quietGrid seq = true → ∃ s' q',
        exec (.detBoundary seq) s = .next s' ∧ s'.grid seq = some q' ∧ q'.serial = true ∧ q'.round = q.round ∧
        q'.held.length = q.held.length ∧ s'.vmem = s.vmem ∧
        ∀ k t, s.team k = some t → t.seq = seq → s'.team k = some { t with boundary := true }) ∧
      (q.serial = true → s.quietGrid seq = true → ∀ h, nextHeld q.held = some h →
        exec (.detBoundary seq) s = .next (s.performHeld seq h) ∧ h ∈ q.held ∧
        ∀ x ∈ q.held, (x.escalated = true → h.escalated = true) ∧
          (x.escalated = h.escalated → h.clock < x.clock ∨ (h.clock = x.clock ∧ h.linear ≤ x.linear))) ∧
      (q.serial = true → s.quietGrid seq = true → q.held = [] → (∀ e ∈ s.gangs, e.2.preq = none) → q.breaker = [] → ∃ s' q',
        exec (.detBoundary seq) s = .next s' ∧ s'.grid seq = some q' ∧ q'.serial = false ∧ q'.round = q.round + 1 ∧
        ∀ k t, s.team k = some t → t.seq = seq → t.park ≠ some .phase → t.phWait = none → ∃ u,
          s'.team k = some u ∧ u.park = none ∧ u.boundary = false ∧ u.pc = t.pc)

/-- R167 to R170, R239 to R241, R268 to R294, R308 to R324, R362 to R368: the events of the engines, of windows, of
the commit arbiters and of DET boundaries have their effects. That an attempt's operands are read at its verdict (log 37), and
the boundary as several events (log 40), are the model's. -/
def Obligations.EngineAndTeamEvents : Prop := Claims.MatrixEvents ∧ Claims.EngineResults ∧ Claims.TeamEvents

/-- `s'` is `s` after a release over the tables that walks read (R384, R388, R465): no line homed here is dirty, and
each stands where it stood. -/
def Sys2Proof.Claims.TablesReleased (s s' : State) : Prop :=
  s'.vmem = s.vmem ∧ s'.teams = s.teams ∧ s'.tlb = s.tlb ∧
  ∀ key l, Tab.find s.lines key = some l → l.pa / 2 ^ 52 = s.fabric.fmod.toNat →
    ∃ l', Tab.find s'.lines key = some l' ∧ l'.dirty = false ∧ l'.pa = l.pa

/-- TLBICTL and TLB_INVALIDATION_DONE (R388, R389), ASIDTAB (R389), FQRESP (R392), SOFT_ERROR (R401 to R403) and
TRANSLATION_WALK (R384 to R387, R391). Which die counts an error, that of a clean line and of a TLB too, is the model's reading
(log 70), and so are the pages that an invalidation names (log 71). -/
def Obligations.MemoryEvents : Prop :=
  ∀ (s : State),
    (s.registersOpen = true →
      (∀ v : W64,
        (s.relia.tlbiBusy = true ∨ v.extractLsb' 0 2 = 3 → ∃ s', exec (.tlbictl v) s = .next s' ∧
          s'.relia = { s.relia with tlbiErr := true } ∧ Claims.TablesReleased s s') ∧
        (s.relia.tlbiBusy = false → v.extractLsb' 0 2 ≠ 3 → ∃ s', exec (.tlbictl v) s = .next s' ∧
          s'.relia = { s.relia with
            tlbiErr := s.relia.tlbiErr && !v.getLsbD 3, tlbiAsid := v.extractLsb' 16 16, tlbiFlush := v.getLsbD 2
            tlbiScope := v.extractLsb' 0 2, tlbiBusy := true, tlbiMark := s'.relia.tlbiMark } ∧
          Claims.TablesReleased s s') ∧
        ∃ s', exec (.asidtab v) s = .next s' ∧ s'.relia = { s.relia with asidtab := v &&& 0x0000FFFFFFFFF001 } ∧
          Claims.TablesReleased s s') ∧
      ∀ (v : W64) f, v.toNat < 2 ^ 33 → (s.relia.faults.find? fun f => f.token == v.setWidth 32) = some f →
        s.staleFault f = false →
        exec (.fqresp v) s = .next { s with relia := { s.relia with
          faults := s.relia.faults.filter (· != f)
          fatal := if v.getLsbD 32 = true then s.relia.fatal ++ [f] else s.relia.fatal } }) ∧
    (∀ v : W64, 2 ^ 33 ≤ v.toNat → exec (.fqresp v) s = .next s) ∧
    (s.relia.tlbiBusy = true → s.tlbiWaits = true → exec .tlbInvalidationDone s = .next s) ∧
    (s.relia.tlbiBusy = true → s.tlbiWaits = false → ∃ s', exec .tlbInvalidationDone s = .next s' ∧
      s'.tlb = s.tlb.filter (fun e => !s.tlbiMatches e) ∧ s'.relia.tlbiBusy = false ∧ s'.teams = s.teams ∧
      (s.relia.tlbiFlush = false → s'.lines = s.lines ∧ s'.vmem = s.vmem) ∧
      (s.relia.tlbiFlush = true → ∀ key, (Tab.find s.lines key).isSome = true →
        s.tlbiCovers (BitVec.ofNat 16 (key / 2 ^ 41)) (key % 2 ^ 41 * 128) = true → Tab.find s'.lines key = none)) ∧
    (∀ site, s.siteExists site = true →
      (∃ s', exec (.softError site true) s = .next s' ∧ s'.teams = s.teams ∧
        (s.relia.beacon.en = false → s'.physPoison = s.physPoison) ∧
        ∀ d, (s.siteOf site).1 = some d → (s'.die d).corr = (s.die d).corr + 1 ∧ (s'.die d).uncorr = (s.die d).uncorr) ∧
      ∃ s', exec (.softError site false) s = .next s' ∧
        ∀ d, (s.siteOf site).1 = some d → (s'.die d).uncorr = (s.die d).uncorr + 1 ∧ (s'.die d).corr = (s.die d).corr) ∧
    (∀ team (reg : BitVec 7) word t, s.team team = some t → (t.row reg.toNat (word % 1024 / 32)).isSome = true →
      ∃ s' u, exec (.softError (.row team reg word) false) s = .next s' ∧ s'.team team = some u ∧
        (∀ n, n ∈ u.rowErr ↔ n ∈ t.rowErr ∨ n = 1024 * reg.toNat + word % 1024) ∧ u.rows = t.rows) ∧
    (∀ granule, hasMemory (32 * granule) = true → s.relia.beacon.en = false → ∃ s', exec (.softError (.dram granule) false) s = .next s' ∧
      ∀ n, n ∈ s'.physPoison ↔ n ∈ s.physPoison ∨ n = granule) ∧
    ∀ w rest, s.walks = w :: rest →
      let va := 128 * w.line
      let x := s.translate (s.walkTlb w) w.tag va w.need w.user w.ident
      (∀ p, x.1 = .page p → p.pa / 2 ^ 52 = s.fabric.fmod.toNat → Tab.find s.lines (lineKey w.tag va) = none →
        s.findWindow w.tag va = none →
        s.MemoryWf → w.line < 2 ^ 41 → ∃ s' l, exec .translationWalk s = .next s' ∧ s'.walks = rest ∧
          Tab.find s'.lines (lineKey w.tag va) = some l ∧ l.dirty = false ∧ l.pa = p.pa / 2 ^ 52 * 2 ^ 52 +
            (p.pa % 2 ^ 52 + (va - p.va)) ∧
          ∀ o, o < 128 → s'.readLoc (.virt w.tag (va + o)) = Memory.read s.phys (p.pa % 2 ^ 52 + (va - p.va) + o)) ∧
      (x.1 = .protect → exec .translationWalk s = .next { s with walks := rest }) ∧
      (∀ r, x.1 = .fault r → s.relia.faults.any w.sameFault = true →
        exec .translationWalk s = .next { s with walks := rest }) ∧
      ∀ r, x.1 = .fault r → s.relia.faults.any w.sameFault = false → ∃ s' f, exec .translationWalk s = .next s' ∧
        s'.walks = rest ∧ s'.relia.faults = s.relia.faults ++ [f] ∧ f.token = s.relia.nextToken ∧ f.line = w.line ∧ f.tag = w.tag ∧
        f.write = w.write ∧ f.team = w.team ∧ s'.relia.nextToken = s.relia.nextToken + 1

/-- VAULT_REPORT (R351, R378), TALLOW_TICK (R355), REFRESH_CHARGE (R354), PHASE_FAILURE (R395, R397), QCAP_UPDATE and
QCAP_RISE (R397, R399), CURRENT_GRANT and BURST_EXPIRY (R396, R398), LAYER_RAIL_FAULT (R400), TELEMETRY_UPDATE (R439),
MODULE_POWER_CAP and CAP_ENFORCEMENT (R440). By how much a cap is lowered is a free value (log 24). The model's choices and
readings are the first setting of QCAP and its rise rounded down (log 65), half of PLIM in a trip rounded down (log 66), and a
share that does not fall below 0 (log 83). -/
def Obligations.PowerEvents : Prop :=
  ∀ (s : State),
    (∀ (die : BitVec 2) (vault : BitVec 6) layers, layers ≠ [] → ∃ s' v,
      exec (.vaultReport die vault layers) s = .next s' ∧ Tab.find (s'.die die.toNat).vaults vault.toNat = some v ∧
      v.layers = layers ∧ v.temp ∈ layers ∧ (∀ x ∈ layers, x ≤ v.temp) ∧
      (let old := ((Tab.find (s.die die.toNat).vaults vault.toNat).getD {}).step
       let n := if 420 < v.temp then 3 else if 380 < v.temp then 2 else if 340 < v.temp then 1 else 0
       (old ≤ n → v.step = n) ∧ (n < old → n ≤ v.step ∧ v.step ≤ old)) ∧
      (460 < v.temp → (s'.die die.toNat).tripped = true) ∧ s'.teams = s.teams) ∧
    (∀ core, core < 256 → ∃ s', exec .tallowTick s = .next s' ∧
      (∀ v, s.vaultAbove core = some v → s'.core core = { s.core core with tallow := allowWord v }) ∧
      (s.vaultAbove core = none → s'.core core = s.core core)) ∧
    (∀ seq q, s.grid seq = some q → ∃ s', exec .refreshCharge s = .next s' ∧
      s'.grid seq = some { q with charge := q.charge + ((s.gangs.filter fun e =>
        e.2.seq == seq && e.2.stat == .resident).map fun e => s.chargeOf e.1 e.2).sum }) ∧
    (∀ (die quad : BitVec 2), (s.rail die.toNat quad.toNat).phok ≠ 0 → ∃ s', exec (.phaseFailure die quad) s = .next s' ∧
      (let r := s.rail die.toNat quad.toNat
       s'.rail die.toNat quad.toNat =
         { r with phok := r.phok - 1, derated := true, ilim := min r.ilim (10 * (r.phok - 1)) }) ∧
      ((s.rail die.toNat quad.toNat).phok - 1 < 8 → ∀ key g, s.gang key = some g →
        g.stat = .placed ∨ g.stat = .resident → g.cluster.toNat / 16 = die.toNat → g.cluster.toNat % 16 / 4 = quad.toNat →
        ∃ g', s'.gang key = some g' ∧ g'.preq.isSome = true)) ∧
    (∀ (die : BitVec 2) (watts : BitVec 16) floor, ∃ s', exec (.qcapUpdate die watts floor) s = .next s' ∧
      let d := s.die die.toNat
      let d' := s'.die die.toNat
      let limit := if d.tripped = true then min d.hflim d.share / 2 else min d.hflim d.share
      d'.pwr = watts.toNat ∧ d'.capped = (d.capped || decide (min d.hflim d.share < watts.toNat)) ∧
      ∀ (i : Nat) (r : Rail), d.rails[i]? = some r → ∃ q, (d'.rails[i]?).bind Rail.qcap = some q ∧
        (watts.toNat ≤ limit → q = max 176 (r.qcap.getD r.ilim)) ∧
        (limit < watts.toNat → 176 ≤ q ∧ (176 < r.qcap.getD r.ilim → q < r.qcap.getD r.ilim))) ∧
    (∀ (die : BitVec 2), ∃ s', exec (.qcapRise die) s = .next s' ∧
      let d := s.die die.toNat
      let limit := if d.tripped = true then min d.hflim d.share / 2 else min d.hflim d.share
      (9 * limit < 10 * d.pwr → s' = s) ∧
      (10 * d.pwr ≤ 9 * limit → ∀ (i : Nat) (r : Rail) q, d.rails[i]? = some r → r.qcap = some q →
        ((s'.die die.toNat).rails[i]?).bind Rail.qcap = some (q + q / 20))) ∧
    (∀ (cluster : BitVec 6) work,
      let cl := cluster.toNat
      let c := s.cluster cl
      let amps := match work with | .pass _ => 12 | .copy => 4 | .vector _ => 2
      (s.currentBudget cl < s.heldCurrent cl + amps → exec (.currentGrant cluster work) s = .next s) ∧
      (work ∉ c.currents → s.wantsCurrent cl work = true → s.heldCurrent cl + amps ≤ s.currentBudget cl → ∃ s',
        exec (.currentGrant cluster work) s = .next s' ∧ (s'.cluster cl).currents = c.currents ++ [work] ∧
        s'.heldCurrent cl = s.heldCurrent cl + amps ∧
        (∀ op, work = .pass op → ∀ e ∈ (s'.cluster cl).table, opName e.team e.op = op → e.current = true)) ∧
      (∀ renew, (∀ op, work ≠ .pass op) →
        (renew && s.wantsCurrent cl work && decide (s.heldCurrent cl ≤ s.currentBudget cl)) = false → ∃ s',
        exec (.burstExpiry cluster work renew) s = .next s' ∧ work ∉ (s'.cluster cl).currents ∧
        ∀ w ∈ c.currents, w ≠ work → w ∈ (s'.cluster cl).currents) ∧
      ∀ op renew, exec (.burstExpiry cluster (.pass op) renew) s = .next s) ∧
    (∀ (die : BitVec 2) (layer : BitVec 3) mv, ∃ s', exec (.layerRailFault die layer mv) s = .next s' ∧
      ∀ n, n ∈ (s'.die die.toNat).offline ↔ n ∈ (s.die die.toNat).offline ∨ n = layer.toNat) ∧
    (∀ x : Sample, ∃ s' r, exec (.telemetryUpdate [x]) s = .next s' ∧
      Tab.find s'.power.records x.point.toNat = some r ∧
      r.sample = ((Tab.find s.power.records x.point.toNat).getD {}).sample + 2 ∧ r.vmv = x.vmv ∧ r.ima = x.ima ∧
      r.temp = x.temp ∧ r.pmw = x.pmw ∧ r.flags = x.flags ∧
      ∀ n, n ≠ x.point.toNat → Tab.find s'.power.records n = Tab.find s.power.records n) ∧
    (∀ watts, ∃ s', exec (.modulePowerCap watts) s = .next s' ∧
      (watts < 1200 ∨ 2400 < watts → s' = { s with hostPort := { s.hostPort with reply := some .invalidData } }) ∧
      (1200 ≤ watts → watts ≤ 2400 → s'.power.cap = watts ∧ ∀ n, n < 4 → (s'.die n).share = (watts - 320) / 4)) ∧
    ∀ watts, ∃ s', exec (.capEnforcement watts) s = .next s' ∧
      ∀ n, n < 4 → (s'.die n).share = (s.die n).share - (watts - s.power.cap)

/-- The registers of window A that a host reads back as written, with the bits they keep (R389, R390, R430, R432,
R438). -/
def Sys2Proof.Claims.plainRegisters : List (Nat × W64) :=
  [(0x100200, 0x0000FFFFFFFFFFFF), (0x100210, 0x0000FFFFFFFFF001), (0x100218, 0x0000FFFFFFFFF001),
   (0x020000, 0xFFFF), (0x0201F8, 0xFFFF), (0x400000, 0xFFFFFFFFFFFFFFFF), (0x400018, 0xFFFFFFFFFFFFFFFF),
   (0x400028, 0x0000FFFFFFFFF000), (0x500000, 0x0000FFFFE0000000), (0x500008, 0x0000FFF000000000)]

/-- MODULE_RESET (R437), REGISTER_WRITE and HOST_APERTURE_ACCESS (R6, R429, R431), ATTCTL_GO and ATTESTATION_DONE (R438),
HOST_LINK_LOSS (R428). The model's choices are that memory keeps its bytes over a reset (log 20), the bytes that a read of
poisoned data answers (log 81), which accesses get a reply at once (log 82), and that accesses wait while a write of the host
is being performed, which a loss of the link drops (log 102), and that a report takes its nonce and buffer at GO (log 109). -/
def Obligations.PackageEvents : Prop :=
  ∀ (s : State),
    (∀ first later, ∃ s', exec (.moduleReset first later) s = .next s' ∧ s'.teams = [] ∧ s'.gangs = [] ∧
      s'.grids = [] ∧ s'.lines = [] ∧ s'.tlb = [] ∧ s'.cores = [] ∧ s'.clusters = [] ∧ s'.dies = [] ∧ s'.phys = s.phys ∧
      s'.cycle = 0 ∧ s'.relia.asidtab = 0 ∧ s'.fabric.fmod = 0 ∧ s'.journal.en = false ∧
      ((∀ x ∈ first :: later, stageVerifies x = true) →
        s'.security.measured = first :: later ∧ s'.security.bootFailed = false) ∧
      ∀ passed x rest, first :: later = passed ++ x :: rest → (∀ y ∈ passed, stageVerifies y = true) →
        stageVerifies x = false →
        s'.security.measured = passed ∧ s'.security.bootFailed = true) ∧
    (∀ offset bytes, offset % 8 ≠ 0 ∨ bytes.length ≠ 8 → exec (.registerWrite offset bytes) s = .next s) ∧
    (∀ r ∈ Claims.plainRegisters, s.registersOpen = true → ∀ v : W64, ∃ s',
      exec (.registerWrite r.1 (leBytes 8 v.toNat)) s = .next s' ∧ s'.regRead r.1 = v &&& r.2 ∧ s'.teams = s.teams ∧
      s'.vmem = s.vmem ∧ exec (.hostApertureAccess false r.1 (.read 8)) s' =
        .next { s' with hostPort := { s'.hostPort with reply := some (.data (leBytes 8 (v &&& r.2).toNat)) } }) ∧
    (s.hostWriting = true → ∀ bulk offset n, exec (.hostApertureAccess bulk offset (.read n)) s = .next s) ∧
    (s.hostWriting = false → ∀ offset,
      let reply (s : State) (r : HostReply) : State := { s with hostPort := { s.hostPort with reply := some r } }
      (offset < 0x600000 →
        (∀ n, offset % 8 ≠ 0 ∨ n ≠ 8 →
          exec (.hostApertureAccess false offset (.read n)) s = .next (reply s .unsupported)) ∧
        (∀ bytes, offset % 8 ≠ 0 ∨ bytes.length ≠ 8 →
          exec (.hostApertureAccess false offset (.write bytes)) s = .next (reply s .unsupported)) ∧
        (offset % 8 = 0 → exec (.hostApertureAccess false offset (.read 8)) s =
          .next (reply s (.data (leBytes 8 (s.regRead offset).toNat)))) ∧
        ∀ bytes s', offset % 8 = 0 → bytes.length = 8 → exec (.registerWrite offset bytes) s = .next s' →
          exec (.hostApertureAccess false offset (.write bytes)) s = .next (reply s' .posted)) ∧
      (0x600000 ≤ offset → offset < 0x20000000 →
        (∀ n, exec (.hostApertureAccess false offset (.read n)) s = .next (reply s (.data (List.replicate n 0)))) ∧
        ∀ bytes, exec (.hostApertureAccess false offset (.write bytes)) s = .next (reply s .posted))) ∧
    (∀ bulk offset va, s.apertureAddr bulk offset = some va → s.security.bootFailed = false → s.hostWriting = false →
      (∀ n bs bad s₁, s.agentRead 0 va n = .done (bs, bad) s₁ → Tab.find s₁.relia.crcNext 4 = none →
        exec (.hostApertureAccess bulk offset (.read n)) s =
          .next { s₁ with hostPort := { s₁.hostPort with reply := some (.data bs) } }) ∧
      (∀ n, s.agentRead 0 va n = .refused → ∃ s', exec (.hostApertureAccess bulk offset (.read n)) s = .next s' ∧
        s'.hostPort.reply = some .abort ∧ s'.teams = s.teams) ∧
      ∀ bytes s₁, bytes ≠ [] → va % 128 + bytes.length ≤ 128 → s.writeOf .host 0 va = none →
        s.agentWrite 0 va bytes none (some s.front.nextWrite) = .done () s₁ → Tab.find s₁.relia.crcNext 4 = none → ∃ s',
          exec (.hostApertureAccess bulk offset (.write bytes)) s = .next s' ∧
          s'.hostPort = { s₁.hostPort with reply := some .posted, pending := none } ∧
          s'.vmem = s₁.vmem ∧ s'.gangs = s₁.gangs ∧ s'.fabric = s₁.fabric ∧ s'.teams = s₁.teams) ∧
    (∀ v : W64, s.hostWriting = false → exec (.attctlGo v) s = .next { s with security := { s.security with
      err := s.security.err && !v.getLsbD 2, busy := s.security.busy || v.getLsbD 0
      jobNonce := if v.getLsbD 0 = true ∧ s.security.busy = false then s.security.nonce else s.security.jobNonce
      jobBuf := if v.getLsbD 0 = true ∧ s.security.busy = false then s.security.buf else s.security.jobBuf } }) ∧
    (s.security.busy = false → exec .attestationDone s = .next s) ∧
    (s.security.busy = true →
      let base := s.security.jobBuf.toNat % 2 ^ 48
      let r := s.security.report
      (r.length = 432 ∧ r.take 8 = [1, 0, 0, 0, 0, 0, 0, 0] ∧
        ∀ i j, i < 4 → j < 8 → r[8 + 8 * i + j]? = some (Claims.byteOf (s.security.jobNonce.getD i 0) j)) ∧
      (∀ s₁ s₂, s.writeReport 4 base r = .whole s₁ → s₁.writeReport 10 (base + 0x200) (signature r) = .whole s₂ → ∃ s',
        exec .attestationDone s = .next s' ∧ s'.security.busy = false ∧ s'.security.err = s₂.security.err ∧
        s'.vmem = s₂.vmem ∧ s'.teams = s₂.teams) ∧
      (∀ s₁, s.writeReport 4 base r = .refused s₁ → ∃ s', exec .attestationDone s = .next s' ∧
        s'.security.busy = false ∧ s'.security.err = true) ∧
      (∀ s₁, s.writeReport 4 base r = .wait s₁ → exec .attestationDone s = .next s₁ ∧ s₁.security = s.security)) ∧
    exec .hostLinkLoss s = .next { s with
      front := { s.front with writes := s.front.writes.filter (·.owner != .host) }
      hostPort := { s.hostPort with reply := none, pending := none } }

/-- DESTINATION_ACCEPTANCE (R435, R446), PEER_INVALIDATION, INVALIDATION_ACK and SWITCH_REMOVAL_REPORT (R447, R448): a
fill brings its data, a peer's store is performed, or waits while the removal of peers' copies is asked for; copies are
removed, those on their way too, which is the model's reading (log 73), and acknowledged removals free the region. -/
def Sys2Proof.Claims.PeerEvents : Prop :=
  ∀ (s : State),
    (∀ n x p data marks flags, s.fabric.out[n]? = some x → x.what = .fill p → x.plane.isSome = true →
      x.stale = false → sentBefore x (s.fabric.out.take n) = false → x.dest.toNat ∉ s.fabric.deadModules →
      Tab.find s.lines (lineKey 0 x.va) = none → x.va < 2 ^ 48 → x.va % 128 = 0 →
      ∃ s' l, exec (.destinationAcceptance (.outgoing n (.accepted data marks flags)) .good) s = .next s' ∧
        Tab.find s'.lines (lineKey 0 x.va) = some l ∧ l.poison = marks ∧ l.plane = x.plane ∧
        (∀ o, o < 128 → s'.readLoc (.virt 0 (x.va + o)) = data.getD o 0) ∧ s'.teams = s.teams) ∧
    (∀ n x reply crc, s.fabric.out[n]? = some x → x.dest.toNat ∉ s.fabric.deadModules →
      sentBefore x (s.fabric.out.take n) = true → exec (.destinationAcceptance (.outgoing n reply) crc) s = .next s) ∧
    (∀ (src : BitVec 12) stamp va bytes s₁ loc, src.toNat ∉ s.fabric.deadModules → s.peerBlocked va (.store bytes) = false →
      (∀ x ∈ s.fabric.heldWrites, x.src = src → va / 512 ∉ x.regions) →
      s.reach (vaultTlb 0 va) 0 va .store false false = .ready s₁ loc → s₁.planesOf 0 va = [] →
      s₁.fabric.undobase.getLsbD 0 = false → (bytes.map (·.1)).Nodup → (∀ b ∈ bytes, b.1 < 128) → Claims.realByte loc →
      ∃ s', exec (.destinationAcceptance (.incoming src stamp va (.store bytes)) .good) s = .next s' ∧
        (∀ b ∈ bytes, s'.readLoc (loc.line.add b.1) = b.2) ∧
        (∀ l, Claims.realByte l → (∀ b ∈ bytes, l ≠ loc.line.add b.1) → s'.readLoc l = s₁.readLoc l) ∧
        loc.line ∈ s'.fabric.peerLines ∧ s'.teams = s₁.teams) ∧
    (∀ (src : BitVec 12) stamp va bytes s₁ loc, src.toNat ∉ s.fabric.deadModules → s.peerBlocked va (.store bytes) = false →
      (∀ x ∈ s.fabric.heldWrites, x.src = src → va / 512 ∉ x.regions) →
      s.reach (vaultTlb 0 va) 0 va .store false false = .ready s₁ loc → s₁.planesOf 0 va ≠ [] → ∃ s' w,
        exec (.destinationAcceptance (.incoming src stamp va (.store bytes)) .good) s = .next s' ∧
        s'.fabric.heldWrites = s₁.fabric.heldWrites ++ [w] ∧ w.src = src ∧ w.va = va ∧ w.op = .store bytes ∧
        s'.vmem = s₁.vmem ∧ ∀ p ∈ s₁.planesOf 0 va, ∃ i ∈ s'.fabric.invals, i.plane = p ∧ i.region = vkey 0 va / 512) ∧
    (∀ (src : BitVec 12) stamp va op crc, src.toNat ∈ s.fabric.deadModules →
      exec (.destinationAcceptance (.incoming src stamp va op) crc) s = .next s) ∧
    (∀ region, ∃ s', exec (.peerInvalidation region) s = .next s' ∧
      (∀ key l, Tab.find s.lines key = some l → key / 4 = region → l.pa / 2 ^ 52 ≠ s.fabric.fmod.toNat →
        Tab.find s'.lines key = none) ∧
      (∀ key, key / 4 ≠ region → Tab.find s'.lines key = Tab.find s.lines key) ∧
      (∀ x ∈ s'.fabric.out, x.va / 512 = region → x.stale = true) ∧ s'.phys = s.phys ∧ s'.teams = s.teams) ∧
    (∀ (plane : BitVec 6) region, s.invalSent plane.toNat region = false →
      exec (.invalidationAck plane region) s = .next s) ∧
    (∀ (plane : BitVec 6) region, s.invalSent plane.toNat region = true → s.fabric.heldWrites = [] →
      (s.fabric.planes.map (·.1)).Nodup → ∃ s',
      exec (.invalidationAck plane region) s = .next s' ∧ s'.invalSent plane.toNat region = false ∧
      ∀ r, (Tab.find s'.fabric.planes r).getD [] =
        if r = region then ((Tab.find s.fabric.planes r).getD []).filter (· != plane.toNat)
        else (Tab.find s.fabric.planes r).getD []) ∧
    (∀ (plane : BitVec 6), s.fabric.heldWrites = [] → (s.fabric.planes.map (·.1)).Nodup → ∃ s',
      exec (.switchRemovalReport plane) s = .next s' ∧
      ∀ r, (Tab.find s'.fabric.planes r).getD [] =
        ((Tab.find s.fabric.planes r).getD []).filter (· != plane.toNat)) ∧
    ∀ (plane : BitVec 6) region w, s.invalSent plane.toNat region = true → s.fabric.heldWrites = [w] → (s.fabric.planes.map (·.1)).Nodup →
      vkey 0 w.va / 512 = region → (∀ n ∈ s.planesOf 0 w.va, n = plane.toNat) → ∃ s₁ : State,
        exec (.invalidationAck plane region) s = .next (s₁.acceptPeer w) ∧ s₁.fabric.heldWrites = [] ∧
        s₁.planesOf 0 w.va = [] ∧ s₁.vmem = s.vmem

/-- FMOD_WRITE and ROUTE_WRITE (R442, R454, R460), NO_USABLE_PLANE_TIMEOUT and DEATH_NOTICE (R443, R454, R455, R460),
BOUNDARY_MARKER and BOUNDARY_ACK (R456, R457), HEARTBEAT (R454), METER_WINDOW (R450), MARGIN_PUBLISH, MARGIN_WARNING,
LANE_REMOVAL, LANE_RETRAIN and LANE_RETURN (R448, R452, R453). The boundary that a module without a plane takes is a free
value (log 26). OLDEST never falls (log 77), and which undo records a marker keeps rests on a free value (log 78): the model's.
A death is stated with Beacon disabled, whose records are written besides: by rollback where the log reaches back to the
boundary, else by containment. -/
def Sys2Proof.Claims.ModuleEvents : Prop :=
  ∀ (s : State),
    (s.registersOpen = true →
      (∀ v : W64, exec (.fmodWrite v) s = .next { s with fabric := { s.fabric with
        fmod := v.setWidth 12, state := if s.fabric.state = 2 then 0 else s.fabric.state } }) ∧
      ∀ (m : BitVec 12) (v : W64), ∃ s', exec (.routeWrite m v) s = .next s' ∧
        s'.route m.toNat = v &&& 0x8000000FFFFFFFFF ∧ (∀ n, n ≠ m.toNat → s'.route n = s.route n) ∧
        (v.getLsbD 63 = true → (s.route m.toNat).getLsbD 63 = false → m.toNat ∉ s'.fabric.deadModules) ∧
        ((s.route m.toNat).getLsbD 63 = true → s'.fabric.deadModules = s.fabric.deadModules)) ∧
    (∀ (m : BitVec 12), s.usable m.toNat = [] → (∃ x ∈ s.fabric.out, x.dest = m ∧ x.plane = none) → ∃ b s',
      exec (.noUsablePlaneTimeout m) s = .next s' ∧ exec (.deathNotice m b) s = .next s') ∧
    (∀ (m : BitVec 12) b, m.toNat ∈ s.fabric.deadModules ∨ m = s.fabric.fmod →
      exec (.deathNotice m b) s = .next s) ∧
    (∀ (m : BitVec 12) b, m.toNat ∉ s.fabric.deadModules → m ≠ s.fabric.fmod → (∀ x ∈ s.fabric.out, x.dest ≠ m) →
      s.relia.beacon.en = false → ∃ s', exec (.deathNotice m b) s = .next s' ∧
        s'.fabric.dead = m ∧ m.toNat ∈ s'.fabric.deadModules ∧
        (∀ w ∈ s'.fabric.heldWrites, w.src ≠ m) ∧
        (∀ key l, Tab.find s.lines key = some l → l.pa / 2 ^ 52 = m.toNat → Tab.find s'.lines key = none) ∧
        let stopped (reason : BitVec 8) : Prop := ∀ seq q a, s.grid seq = some q → q.stat ≠ .retired → q.reason = 0 →
          q.fabricSince = some a → b.toNat ≤ a → ∃ q', s'.grid seq = some q' ∧ q'.reason = reason
        (s.fabric.undobase.getLsbD 0 = false ∨ b.toNat < s.fabric.oldest.toNat → s'.fabric.state = 2 ∧ stopped 10) ∧
        (s.fabric.undobase.getLsbD 0 = true → s.fabric.oldest.toNat ≤ b.toNat → s'.fabric.state = 0 ∧
          s'.fabric.target = b ∧ (∀ r, r ∈ s'.fabric.undo ↔ r ∈ s.fabric.undo ∧ r.stamp.toNat < b.toNat) ∧ stopped 9)) ∧
    (∀ e, (s.fabric.period = 0 → exec (.boundaryMarker e) s = .next s) ∧
      (s.fabric.period ≠ 0 → ∃ s', exec (.boundaryMarker e) s = .next s' ∧ s'.fabric.current = e ∧
        s'.fabric.boundaries = s.fabric.boundaries ++ [e] ∧ s.fabric.oldest.toNat ≤ s'.fabric.oldest.toNat ∧
        (∀ r ∈ s'.fabric.undo, r ∈ s.fabric.undo) ∧
        (∀ r ∈ s.fabric.undo, s.fabric.acked.toNat ≤ r.stamp.toNat → r ∈ s'.fabric.undo) ∧
        s'.teams = s.teams ∧ s'.vmem = s.vmem ∧ s'.phys = s.phys)) ∧
    (s.fabric.boundaries = [] → exec .boundaryAck s = .next s) ∧
    (∀ e rest, s.fabric.boundaries = e :: rest →
      ((∃ x ∈ s.fabric.out, x.plane.isSome = true ∧ x.stamp = e - 1) → exec .boundaryAck s = .next s) ∧
      ((∀ x ∈ s.fabric.out, x.plane.isSome = true → x.stamp ≠ e - 1) →
        exec .boundaryAck s = .next { s with fabric := { s.fabric with acked := e, boundaries := rest } })) ∧
    (∀ n, n < 36 → ∃ s', exec .heartbeat s = .next s' ∧
      s'.port n = if (s.port n).up = true then { s.port n with heartbeats := (s.port n).heartbeats + 1 } else s.port n) ∧
    ∀ port : BitVec 6,
      let n := port.toNat
      n < 36 →
      ((∀ x ∈ s.fabric.out, x.plane.isSome = true) → s.fabric.acks = [] → (∀ i ∈ s.fabric.invals, i.sent = true) → ∃ s',
        exec (.meterWindow port) s = .next s' ∧
        s'.port n = { s.port n with admitted := 0 }) ∧
      (∀ m0 m1, ∃ s', exec (.marginPublish port m0 m1) s = .next s' ∧ s'.port n = { s.port n with
        lane0 := { (s.port n).lane0 with margin := m0 }, lane1 := { (s.port n).lane1 with margin := m1 } }) ∧
      ((s.port n).weak = true → ∃ s', exec (.marginWarning port) s = .next s' ∧ (s'.port n).warn = true) ∧
      ((s.port n).weak = false → exec (.marginWarning port) s = .next s) ∧
      ∀ lane1,
        (((s.port n).lane lane1).ok = true → ∃ s', exec (.laneRemoval port lane1) s = .next s' ∧
          ((s'.port n).lane lane1).ok = false ∧ (s'.port n).degraded = true ∧
          (s'.port n).lane (!lane1) = (s.port n).lane (!lane1) ∧
          (((s.port n).lane (!lane1)).ok = false → s.relia.beacon.en = false → ∀ key l, Tab.find s.lines key = some l →
            l.plane = some n → l.pa / 2 ^ 52 ≠ s.fabric.fmod.toNat → Tab.find s'.lines key = none)) ∧
        (((s.port n).lane lane1).ok = false → ∃ s', exec (.laneRetrain port lane1) s = .next s' ∧
          s'.port n = (s.port n).setLane lane1 { (s.port n).lane lane1 with retraining := true }) ∧
        (((s.port n).lane lane1).retraining = true → (s.port n).warnt ≤ ((s.port n).lane lane1).margin → ∃ s',
          exec (.laneReturn port lane1) s = .next s' ∧ ((s'.port n).lane lane1).ok = true ∧
          ((s'.port n).lane lane1).retraining = false ∧ (s'.port n).lane (!lane1) = (s.port n).lane (!lane1))

/-- R435, R442 to R460: the events of the fabric have their effects. -/
def Obligations.FabricEvents : Prop := Claims.PeerEvents ∧ Claims.ModuleEvents

/-! ## The machine -/

/-- R42, R45, R57, R63: with an empty schedule, when the selected team may issue and the word at its pc is fetched, a step
is exec of the instruction that the word stands for, then the verdicts on the passes that it has checked (R185), writes of peers
that nothing keeps any longer (R242, R447), the save reserves (R264), and the passing of time, which leave a team all but the
passes in its pipeline and its hold of the reserve; a word that no row of the table decodes
is RESERVED_ENCODING, and one that has passed between dies and failed its CRC check twice takes poisoned data (R435, R466). The head of the schedule, if there is one, happens first (the model's schedule, log 1). -/
def Obligations.StepRunsTheDecodedInstruction : Prop :=
  ∀ (s : State),
    (∀ k t w, s.agenda = [] → s.cur = some k → s.team k = some t → t.mayIssue = true → s.preemptDue t = false →
      t.dueReport = none → (s.standsBack k t = false ∨ t.pipe.behind = false) →
      s.fetch k t = .word w →
      let x := s.crossing (t.core.toNat / 64) (tagOf (t.asid.setWidth 16) t.pc.toNat) t.pc.toNat
      (Tab.find s.relia.crcNext (t.core.toNat / 64) = none → x = (false, s)) ∧
      (x.1 = true → step s = tickResult s (.next (x.2.fetchTrap k t 0x11))) ∧
      (x.1 = false → (∀ i, decode w = .ok i → step s = tickResult s (exec i x.2)) ∧
        ∀ e, decode w = .error e → step s = tickResult s (exec (.reservedEncoding w) x.2))) ∧
    (∀ i rest, s.agenda = i :: rest → step s = tickResult s (exec i { s with agenda := rest })) ∧
    (∀ s', tickResult s (.next s') = .next (s'.settleStep s)) ∧
    ∀ old : State, s.settleStep old =
        (if s.fabric.heldWrites = [] then s.takeVerdicts old else (s.takeVerdicts old).releaseHeld).settleReserve.tick ∧
      (s.fabric.heldWrites = [] →
        let s' := s.settleStep old
        (∀ k t, s.team k = some t → ∃ u, s'.team k = some u ∧ u = { t with pipe := u.pipe, reserve := u.reserve }) ∧
        s'.gangs = s.gangs ∧ s'.agenda = s.agenda ∧ s'.cur = s.cur ∧ s'.freeIdx = s.freeIdx + 1)

/-- R123: NOP has the format SY with MAJ 0 and SUB 0, and its words under the three schedule versions are NOPs; it
retires, which counts towards RETIRED in user mode (R208), and has no other effect. -/
def Obligations.NopOnlyRetires : Prop :=
  (∀ (f : SY) (s : State) (k : Nat) (t : Team), s.CanIssueScalar k t [] → Claims.GoesOn (.nop f) s k t) ∧
  (∀ t : Team, t.sys = false → t.retiredNext = t.retired + 1) ∧
  decode 0x00000000 = .ok (.nop { sv := 0 }) ∧ decode 0x40000000 = .ok (.nop { sv := 1 }) ∧
  decode 0x80000000 = .ok (.nop { sv := 2 })

/-- R60, R63, R64, and the worked examples of spec/02, 04, 05, 06, 10, 11, 12 and 13: words of the spec decode to their
instructions, and reserved words are refused for the reason that R64 gives. -/
def Obligations.WorkedEncodings : Prop :=
  (∀ e ∈ ([(0x410A1A00, .sadd { sv := 1, d := 5, a := 6, b := 64 }),
      (0x447CFBC0, .saddi { sv := 1, d := 62, a := 62, i := 0x3C0 }),
      (0x4B100414, .scmp { sv := 1, d := 8, a := 1, b := 2, c := 4 }),
      (0x4D182871, .mandn { sv := 1, d := 12, a := 10, b := 14 }),
      (0x522BFFFB, .brzm { sv := 1, s := 10, o := 0x3FFFB }),
      (0x557E5010, .callr { sv := 1, d := 63, a := 20, l := false }),
      (0x58060414, .vadd { sv := 1, d := 3, a := 1, b := 2, l := true, m := false }),
      (0x60100412, .vcmp { sv := 1, d := 8, a := 1, b := 2, c := 2 }),
      (0x630C1092, .vexp2 { sv := 1, d := 6, a := 4, l := true, h := 2 }),
      (0x6E101423, .vld { sv := 1, d := 8, a := 5, s := 2, h := 3 }),
      (0x7A8F0CA0, .sldacq { sv := 1, d := 7, a := 67, s := 10, h := 0 }),
      (0x7C194F80, .amocas { sv := 1, d := 6, s := 20, q := true, r := true, h := 0 }),
      (0x40180013, .fence { sv := 1, k := 2, o := 3 }),
      (0x40101411, .sysr { sv := 1, s := 5, n := 0x011 }),
      (0x40301401, .rmap { sv := 1, s := 40, a := 1 }),
      (0x571461F0, .mdrainb { sv := 1, a := 5, b := 6, c := 7, h := 0 }),
      (0x40230122, .bartest { sv := 1, s := 9, i := 2 }),
      (0x6D105190, .publish { sv := 1, a := 4, b := 5, c := 6, h := 0 })] : List (W32 × Instr)),
    decode e.1 = .ok e.2) ∧
  decode 0xFF000000 = .error .scheduleVersion ∧ decode 0x62001001 = .error .mustBeZero ∧
  Reject.scheduleVersion.reason = 1 ∧ Reject.mustBeZero.reason = 4

/-- R45, R57 to R64: decoding and encoding agree, bit for bit: the word of a well-formed instruction, in the bytes that
memory holds, decodes to that instruction with every operand, and a word that decodes is the word of its instruction,
which is well formed. -/
def Obligations.DecodingInvertsEncoding : Prop :=
  (∀ (i : Instr) (w : W32), encode i = some w → WellFormed i = true → decode w = .ok i ∧
    ∀ rest, decodeBytes (bytesOfWord w ++ rest) = .ok (i, rest)) ∧
  (∀ (w : W32) (i : Instr), decode w = .ok i → encode i = some w ∧ WellFormed i = true)

/-- The reset values that the register tables of R204, R205, R207, R253, R290, R291, R299, R334, R355, R389, R393, R395,
R403, R432, R440, R442 and R452 give. -/
def Obligations.ResetValues : Prop :=
  let s := State.reset
  s.teams = [] ∧ s.gangs = [] ∧ s.grids = [] ∧ s.cycle = 0 ∧ s.power.cap = 2400 ∧
  (∀ n, let c := s.core n
    c.trapbase = 0 ∧ c.preemptlim = 100 ∧ c.mgate = 2000 ∧ c.tallow = 0 ∧ c.misload = 0 ∧ c.miscomp = 0 ∧ c.flushed = 0 ∧
    c.chkrecomp = 0 ∧ c.logstall = 0 ∧ c.brkcnt = 0 ∧ c.misrate = 0 ∧ c.thresh = 16 ∧ c.step = 0 ∧ c.stepmax = 8 ∧
    c.adapt = true ∧ c.poolReg = 8 ∧ c.poolAcc = 0) ∧
  (∀ n, let c := s.cluster n
    c.powered = false ∧ c.mxpass = 0 ∧ c.mxreplay = 0 ∧ c.mxwake = 0 ∧ c.table = []) ∧
  (∀ n, let d := s.die n
    d.minres = 10 ∧ d.hyst = 8 ∧ d.migen = true ∧ d.llrefuse = 0 ∧ d.llmigr = 0 ∧ d.corr = 0 ∧ d.uncorr = 0 ∧
    (∀ p, p < 8 → d.coef.getD p 0 = BitVec.ofNat 64 (8 * p + 2 * p * 2 ^ 16 + p * 2 ^ 32)) ∧
    ∀ q, q < 4 → (d.rails.getD q {}).phok = 24 ∧ (d.rails.getD q {}).ilim = 240 ∧ (d.rails.getD q {}).derated = false) ∧
  (∀ q, q < 64 → s.regRead (0x10000 + 32 * q) = 0 ∧ s.regRead (0x10008 + 32 * q) = 0x40C ∧
    s.regRead (0x10010 + 32 * q) = 0 ∧ s.regRead (0x10018 + 32 * q) = 0 ∧ s.regRead (0x20000 + 8 * q) = 0) ∧
  (∀ e ∈ ([(0x100000, 0), (0x100008, 0x10), (0x100010, 0), (0x100018, 0), (0x100020, 0), (0x100100, 0), (0x100108, 0x10),
      (0x100200, 0), (0x100208, 0), (0x100210, 0), (0x100218, 0), (0x100400, 0), (0x100408, 2000), (0x100410, 0),
      (0x100418, 0), (0x100420, 0), (0x100428, 0), (0x200000, 0), (0x200008, 12)] : List (Nat × W64)),
    s.regRead e.1 = e.2) ∧
  (∀ p, p < 36 → s.regRead (0x101000 + 16 * p) = 0x20 ∧ s.regRead (0x101008 + 16 * p) = 0x1028) ∧
  ∀ m, m < 4096 → s.regRead (0x108000 + 8 * m) = 0

/-- The byte memories have their canonical form at reset (log 4). -/
def Obligations.ResetMemoryIsCanonical : Prop := State.reset.MemoryWf

/-- Every step keeps the canonical form of the byte memories (log 4), from every state that has it: addresses strictly
rising, and no byte listed that an unlisted address reads as. -/
def Obligations.StepKeepsMemoryCanonical : Prop :=
  ∀ s s' : State, s.MemoryWf → step s = .next s' → s'.MemoryWf
end

