-- ==== Sys2Proof/Laws/Exec.lean ====
section
/-! SUPPORT. One arm of the dispatch per lemma, so that no proof unfolds the whole match. -/

namespace Sys2Proof.Machine

section
set_option Elab.async false

theorem exec_sadd (f : S3) (s : State) : exec (.sadd f) s = execSadd f s := rfl
theorem exec_ssub (f : S3) (s : State) : exec (.ssub f) s = execSsub f s := rfl
theorem exec_smul (f : S3) (s : State) : exec (.smul f) s = execSmul f s := rfl
theorem exec_smulh (f : S3) (s : State) : exec (.smulh f) s = execSmulh f s := rfl
theorem exec_sand (f : S3) (s : State) : exec (.sand f) s = execSand f s := rfl
theorem exec_sor (f : S3) (s : State) : exec (.sor f) s = execSor f s := rfl
theorem exec_sxor (f : S3) (s : State) : exec (.sxor f) s = execSxor f s := rfl
theorem exec_sandn (f : S3) (s : State) : exec (.sandn f) s = execSandn f s := rfl
theorem exec_sshl (f : S3) (s : State) : exec (.sshl f) s = execSshl f s := rfl
theorem exec_sshr (f : S3) (s : State) : exec (.sshr f) s = execSshr f s := rfl
theorem exec_ssar (f : S3) (s : State) : exec (.ssar f) s = execSsar f s := rfl
theorem exec_srot (f : S3) (s : State) : exec (.srot f) s = execSrot f s := rfl
theorem exec_smin (f : S3) (s : State) : exec (.smin f) s = execSmin f s := rfl
theorem exec_smax (f : S3) (s : State) : exec (.smax f) s = execSmax f s := rfl
theorem exec_sminu (f : S3) (s : State) : exec (.sminu f) s = execSminu f s := rfl
theorem exec_smaxu (f : S3) (s : State) : exec (.smaxu f) s = execSmaxu f s := rfl
theorem exec_slea4 (f : S3) (s : State) : exec (.slea4 f) s = execSlea4 f s := rfl
theorem exec_slea8 (f : S3) (s : State) : exec (.slea8 f) s = execSlea8 f s := rfl
theorem exec_smulhu (f : S3) (s : State) : exec (.smulhu f) s = execSmulhu f s := rfl
theorem exec_saddi (f : SI) (s : State) : exec (.saddi f) s = execSaddi f s := rfl
theorem exec_sandi (f : SI) (s : State) : exec (.sandi f) s = execSandi f s := rfl
theorem exec_sshli (f : SH) (s : State) : exec (.sshli f) s = execSshli f s := rfl
theorem exec_sshri (f : SH) (s : State) : exec (.sshri f) s = execSshri f s := rfl
theorem exec_smovi (f : LI) (s : State) : exec (.smovi f) s = execSmovi f s := rfl
theorem exec_sseth (f : LI) (s : State) : exec (.sseth f) s = execSseth f s := rfl
theorem exec_ssett (f : LI) (s : State) : exec (.ssett f) s = execSsett f s := rfl
theorem exec_scmp (f : CS) (s : State) : exec (.scmp f) s = execScmp f s := rfl
theorem exec_smov (f : FS) (s : State) : exec (.smov f) s = execSmov f s := rfl
theorem exec_snot (f : FS) (s : State) : exec (.snot f) s = execSnot f s := rfl
theorem exec_sneg (f : FS) (s : State) : exec (.sneg f) s = execSneg f s := rfl
theorem exec_spopc (f : FS) (s : State) : exec (.spopc f) s = execSpopc f s := rfl
theorem exec_sclz (f : FS) (s : State) : exec (.sclz f) s = execSclz f s := rfl
theorem exec_sctz (f : FS) (s : State) : exec (.sctz f) s = execSctz f s := rfl
theorem exec_sbrev (f : FS) (s : State) : exec (.sbrev f) s = execSbrev f s := rfl
theorem exec_ssext32 (f : FS) (s : State) : exec (.ssext32 f) s = execSsext32 f s := rfl
theorem exec_szext32 (f : FS) (s : State) : exec (.szext32 f) s = execSzext32 f s := rfl
theorem exec_sabs (f : FS) (s : State) : exec (.sabs f) s = execSabs f s := rfl
theorem exec_mand (f : S3) (s : State) : exec (.mand f) s = execMand f s := rfl
theorem exec_mandn (f : S3) (s : State) : exec (.mandn f) s = execMandn f s := rfl
theorem exec_mor (f : S3) (s : State) : exec (.mor f) s = execMor f s := rfl
theorem exec_mxor (f : S3) (s : State) : exec (.mxor f) s = execMxor f s := rfl
theorem exec_mnot (f : FS) (s : State) : exec (.mnot f) s = execMnot f s := rfl
theorem exec_mpopc (f : FS) (s : State) : exec (.mpopc f) s = execMpopc f s := rfl
theorem exec_mffs (f : FS) (s : State) : exec (.mffs f) s = execMffs f s := rfl
theorem exec_mset (f : FS) (s : State) : exec (.mset f) s = execMset f s := rfl
theorem exec_mclr (f : FS) (s : State) : exec (.mclr f) s = execMclr f s := rfl
theorem exec_mcpy (f : FS) (s : State) : exec (.mcpy f) s = execMcpy f s := rfl
theorem exec_br (f : BX) (s : State) : exec (.br f) s = execBr f s := rfl
theorem exec_brz (f : BX) (s : State) : exec (.brz f) s = execBrz f s := rfl
theorem exec_brnz (f : BX) (s : State) : exec (.brnz f) s = execBrnz f s := rfl
theorem exec_brzm (f : BX) (s : State) : exec (.brzm f) s = execBrzm f s := rfl
theorem exec_brnzm (f : BX) (s : State) : exec (.brnzm f) s = execBrnzm f s := rfl
theorem exec_call (f : BX) (s : State) : exec (.call f) s = execCall f s := rfl
theorem exec_jmpr (f : FS) (s : State) : exec (.jmpr f) s = execJmpr f s := rfl
theorem exec_callr (f : FS) (s : State) : exec (.callr f) s = execCallr f s := rfl
theorem exec_ret (f : FS) (s : State) : exec (.ret f) s = execRet f s := rfl
theorem exec_mma (f : EN) (s : State) : exec (.mma f) s = execMma f s := rfl
theorem exec_mmag (f : EN) (s : State) : exec (.mmag f) s = execMmag f s := rfl
theorem exec_mzero (f : EN) (s : State) : exec (.mzero f) s = execMzero f s := rfl
theorem exec_mldacc (f : EN) (s : State) : exec (.mldacc f) s = execMldacc f s := rfl
theorem exec_mdrain (f : EN) (s : State) : exec (.mdrain f) s = execMdrain f s := rfl
theorem exec_mdraina (f : EN) (s : State) : exec (.mdraina f) s = execMdraina f s := rfl
theorem exec_mqnt (f : EN) (s : State) : exec (.mqnt f) s = execMqnt f s := rfl
theorem exec_mdrainb (f : EN) (s : State) : exec (.mdrainb f) s = execMdrainb f s := rfl
theorem exec_vadd (f : V3) (s : State) : exec (.vadd f) s = execVadd f s := rfl
theorem exec_vsub (f : V3) (s : State) : exec (.vsub f) s = execVsub f s := rfl
theorem exec_vmul (f : V3) (s : State) : exec (.vmul f) s = execVmul f s := rfl
theorem exec_vmulh (f : V3) (s : State) : exec (.vmulh f) s = execVmulh f s := rfl
theorem exec_vfma (f : V3) (s : State) : exec (.vfma f) s = execVfma f s := rfl
theorem exec_vfms (f : V3) (s : State) : exec (.vfms f) s = execVfms f s := rfl
theorem exec_vmin (f : V3) (s : State) : exec (.vmin f) s = execVmin f s := rfl
theorem exec_vmax (f : V3) (s : State) : exec (.vmax f) s = execVmax f s := rfl
theorem exec_vand (f : V3) (s : State) : exec (.vand f) s = execVand f s := rfl
theorem exec_vor (f : V3) (s : State) : exec (.vor f) s = execVor f s := rfl
theorem exec_vxor (f : V3) (s : State) : exec (.vxor f) s = execVxor f s := rfl
theorem exec_vandn (f : V3) (s : State) : exec (.vandn f) s = execVandn f s := rfl
theorem exec_vshl (f : V3) (s : State) : exec (.vshl f) s = execVshl f s := rfl
theorem exec_vshr (f : V3) (s : State) : exec (.vshr f) s = execVshr f s := rfl
theorem exec_vsar (f : V3) (s : State) : exec (.vsar f) s = execVsar f s := rfl
theorem exec_vrot (f : V3) (s : State) : exec (.vrot f) s = execVrot f s := rfl
theorem exec_vcmp (f : CS) (s : State) : exec (.vcmp f) s = execVcmp f s := rfl
theorem exec_vsel (f : V3) (s : State) : exec (.vsel f) s = execVsel f s := rfl
theorem exec_vflk (f : V3) (s : State) : exec (.vflk f) s = execVflk f s := rfl
theorem exec_vmov (f : FS) (s : State) : exec (.vmov f) s = execVmov f s := rfl
theorem exec_vneg (f : FS) (s : State) : exec (.vneg f) s = execVneg f s := rfl
theorem exec_vabs (f : FS) (s : State) : exec (.vabs f) s = execVabs f s := rfl
theorem exec_vnot (f : FS) (s : State) : exec (.vnot f) s = execVnot f s := rfl
theorem exec_vpopc (f : FS) (s : State) : exec (.vpopc f) s = execVpopc f s := rfl
theorem exec_vclz (f : FS) (s : State) : exec (.vclz f) s = execVclz f s := rfl
theorem exec_vflr (f : FS) (s : State) : exec (.vflr f) s = execVflr f s := rfl
theorem exec_vceil (f : FS) (s : State) : exec (.vceil f) s = execVceil f s := rfl
theorem exec_vtrnc (f : FS) (s : State) : exec (.vtrnc f) s = execVtrnc f s := rfl
theorem exec_vrnd (f : FS) (s : State) : exec (.vrnd f) s = execVrnd f s := rfl
theorem exec_vlane (f : FS) (s : State) : exec (.vlane f) s = execVlane f s := rfl
theorem exec_vbrev (f : FS) (s : State) : exec (.vbrev f) s = execVbrev f s := rfl
theorem exec_vclass (f : FS) (s : State) : exec (.vclass f) s = execVclass f s := rfl
theorem exec_vdiv (f : FL) (s : State) : exec (.vdiv f) s = execVdiv f s := rfl
theorem exec_vrcp (f : FL) (s : State) : exec (.vrcp f) s = execVrcp f s := rfl
theorem exec_vsqrt (f : FL) (s : State) : exec (.vsqrt f) s = execVsqrt f s := rfl
theorem exec_vrsq (f : FL) (s : State) : exec (.vrsq f) s = execVrsq f s := rfl
theorem exec_vexp2 (f : FL) (s : State) : exec (.vexp2 f) s = execVexp2 f s := rfl
theorem exec_vlog2 (f : FL) (s : State) : exec (.vlog2 f) s = execVlog2 f s := rfl
theorem exec_vsin (f : FL) (s : State) : exec (.vsin f) s = execVsin f s := rfl
theorem exec_vcos (f : FL) (s : State) : exec (.vcos f) s = execVcos f s := rfl
theorem exec_vtanh (f : FL) (s : State) : exec (.vtanh f) s = execVtanh f s := rfl
theorem exec_vsigm (f : FL) (s : State) : exec (.vsigm f) s = execVsigm f s := rfl
theorem exec_vexp (f : FL) (s : State) : exec (.vexp f) s = execVexp f s := rfl
theorem exec_vlog (f : FL) (s : State) : exec (.vlog f) s = execVlog f s := rfl
theorem exec_vcvt (f : CVT) (s : State) : exec (.vcvt f) s = execVcvt f s := rfl
theorem exec_vmovs (f : V3) (s : State) : exec (.vmovs f) s = execVmovs f s := rfl
theorem exec_vgets (f : V3) (s : State) : exec (.vgets f) s = execVgets f s := rfl
theorem exec_vshfl (f : V3) (s : State) : exec (.vshfl f) s = execVshfl f s := rfl
theorem exec_vbfly (f : V3) (s : State) : exec (.vbfly f) s = execVbfly f s := rfl
theorem exec_vredwAdd (f : FS) (s : State) : exec (.vredwAdd f) s = execVredwAdd f s := rfl
theorem exec_vredwMin (f : FS) (s : State) : exec (.vredwMin f) s = execVredwMin f s := rfl
theorem exec_vredwMax (f : FS) (s : State) : exec (.vredwMax f) s = execVredwMax f s := rfl
theorem exec_vredwAnd (f : FS) (s : State) : exec (.vredwAnd f) s = execVredwAnd f s := rfl
theorem exec_vredwOr (f : FS) (s : State) : exec (.vredwOr f) s = execVredwOr f s := rfl
theorem exec_vredwXor (f : FS) (s : State) : exec (.vredwXor f) s = execVredwXor f s := rfl
theorem exec_vaddi (f : VI) (s : State) : exec (.vaddi f) s = execVaddi f s := rfl
theorem exec_vmovi (f : LI) (s : State) : exec (.vmovi f) s = execVmovi f s := rfl
theorem exec_vqnt (f : QN) (s : State) : exec (.vqnt f) s = execVqnt f s := rfl
theorem exec_vdqnt (f : QN) (s : State) : exec (.vdqnt f) s = execVdqnt f s := rfl
theorem exec_cpy (f : EN) (s : State) : exec (.cpy f) s = execCpy f s := rfl
theorem exec_cpyq (f : EN) (s : State) : exec (.cpyq f) s = execCpyq f s := rfl
theorem exec_cpyp (f : EN) (s : State) : exec (.cpyp f) s = execCpyp f s := rfl
theorem exec_launch (f : EN) (s : State) : exec (.launch f) s = execLaunch f s := rfl
theorem exec_publish (f : EN) (s : State) : exec (.publish f) s = execPublish f s := rfl
theorem exec_unpub (f : EN) (s : State) : exec (.unpub f) s = execUnpub f s := rfl
theorem exec_vld (f : MV) (s : State) : exec (.vld f) s = execVld f s := rfl
theorem exec_vldb (f : MV) (s : State) : exec (.vldb f) s = execVldb f s := rfl
theorem exec_vldh (f : MV) (s : State) : exec (.vldh f) s = execVldh f s := rfl
theorem exec_vldd (f : MV) (s : State) : exec (.vldd f) s = execVldd f s := rfl
theorem exec_vst (f : MV) (s : State) : exec (.vst f) s = execVst f s := rfl
theorem exec_vstb (f : MV) (s : State) : exec (.vstb f) s = execVstb f s := rfl
theorem exec_vsth (f : MV) (s : State) : exec (.vsth f) s = execVsth f s := rfl
theorem exec_vstd (f : MV) (s : State) : exec (.vstd f) s = execVstd f s := rfl
theorem exec_vldl (f : MV) (s : State) : exec (.vldl f) s = execVldl f s := rfl
theorem exec_vstl (f : MV) (s : State) : exec (.vstl f) s = execVstl f s := rfl
theorem exec_vldlb (f : MV) (s : State) : exec (.vldlb f) s = execVldlb f s := rfl
theorem exec_vstlb (f : MV) (s : State) : exec (.vstlb f) s = execVstlb f s := rfl
theorem exec_sld (f : MS) (s : State) : exec (.sld f) s = execSld f s := rfl
theorem exec_sldacq (f : MS) (s : State) : exec (.sldacq f) s = execSldacq f s := rfl
theorem exec_sst (f : MS) (s : State) : exec (.sst f) s = execSst f s := rfl
theorem exec_sstrel (f : MS) (s : State) : exec (.sstrel f) s = execSstrel f s := rfl
theorem exec_amoadd (f : AM) (s : State) : exec (.amoadd f) s = execAmoadd f s := rfl
theorem exec_amoand (f : AM) (s : State) : exec (.amoand f) s = execAmoand f s := rfl
theorem exec_amoor (f : AM) (s : State) : exec (.amoor f) s = execAmoor f s := rfl
theorem exec_amoxor (f : AM) (s : State) : exec (.amoxor f) s = execAmoxor f s := rfl
theorem exec_amomin (f : AM) (s : State) : exec (.amomin f) s = execAmomin f s := rfl
theorem exec_amomax (f : AM) (s : State) : exec (.amomax f) s = execAmomax f s := rfl
theorem exec_amoswp (f : AM) (s : State) : exec (.amoswp f) s = execAmoswp f s := rfl
theorem exec_amocas (f : AM) (s : State) : exec (.amocas f) s = execAmocas f s := rfl
theorem exec_cpref (f : CA) (s : State) : exec (.cpref f) s = execCpref f s := rfl
theorem exec_cprefl2 (f : CA) (s : State) : exec (.cprefl2 f) s = execCprefl2 f s := rfl
theorem exec_cflush (f : CA) (s : State) : exec (.cflush f) s = execCflush f s := rfl
theorem exec_cinv (f : CA) (s : State) : exec (.cinv f) s = execCinv f s := rfl
theorem exec_redadd (f : RD) (s : State) : exec (.redadd f) s = execRedadd f s := rfl
theorem exec_redadds (f : RD) (s : State) : exec (.redadds f) s = execRedadds f s := rfl
theorem exec_nop (f : SY) (s : State) : exec (.nop f) s = execNop f s := rfl
theorem exec_exit (f : SY) (s : State) : exec (.exit f) s = execExit f s := rfl
theorem exec_yield (f : SY) (s : State) : exec (.yield f) s = execYield f s := rfl
theorem exec_trap (f : SYI) (s : State) : exec (.trap f) s = execTrap f s := rfl
theorem exec_eret (f : SY) (s : State) : exec (.eret f) s = execEret f s := rfl
theorem exec_halt (f : SY) (s : State) : exec (.halt f) s = execHalt f s := rfl
theorem exec_modei (f : SYI) (s : State) : exec (.modei f) s = execModei f s := rfl
theorem exec_modew (f : SYS) (s : State) : exec (.modew f) s = execModew f s := rfl
theorem exec_moder (f : SYS) (s : State) : exec (.moder f) s = execModer f s := rfl
theorem exec_sysr (f : SYR) (s : State) : exec (.sysr f) s = execSysr f s := rfl
theorem exec_sysw (f : SYR) (s : State) : exec (.sysw f) s = execSysw f s := rfl
theorem exec_fence (f : SYF) (s : State) : exec (.fence f) s = execFence f s := rfl
theorem exec_waitc (f : SYC) (s : State) : exec (.waitc f) s = execWaitc f s := rfl
theorem exec_rdc (f : SYC) (s : State) : exec (.rdc f) s = execRdc f s := rfl
theorem exec_bararr (f : SYB) (s : State) : exec (.bararr f) s = execBararr f s := rfl
theorem exec_barwait (f : SYB) (s : State) : exec (.barwait f) s = execBarwait f s := rfl
theorem exec_barsync (f : SYB) (s : State) : exec (.barsync f) s = execBarsync f s := rfl
theorem exec_bartest (f : SYT) (s : State) : exec (.bartest f) s = execBartest f s := rfl
theorem exec_phadv (f : SY) (s : State) : exec (.phadv f) s = execPhadv f s := rfl
theorem exec_txbegin (f : SY) (s : State) : exec (.txbegin f) s = execTxbegin f s := rfl
theorem exec_txend (f : SYS) (s : State) : exec (.txend f) s = execTxend f s := rfl
theorem exec_txabort (f : SYA) (s : State) : exec (.txabort f) s = execTxabort f s := rfl
theorem exec_txstat (f : SYS) (s : State) : exec (.txstat f) s = execTxstat f s := rfl
theorem exec_rmap (f : SYM) (s : State) : exec (.rmap f) s = execRmap f s := rfl
theorem exec_reservedEncoding (word : W32) (s : State) : exec (.reservedEncoding word) s = execReservedEncoding word s := rfl
theorem exec_issueSelection (core : BitVec 8) (s : State) : exec (.issueSelection core) s = execIssueSelection core s := rfl
theorem exec_checkerCacheFill (core : BitVec 8) (s : State) : exec (.checkerCacheFill core) s = execCheckerCacheFill core s := rfl
theorem exec_storeQueueDrain (core : BitVec 8) (s : State) : exec (.storeQueueDrain core) s = execStoreQueueDrain core s := rfl
theorem exec_marginWindow (core : BitVec 8) (s : State) : exec (.marginWindow core) s = execMarginWindow core s := rfl
theorem exec_deadlockBreaker (core : BitVec 8) (s : State) : exec (.deadlockBreaker core) s = execDeadlockBreaker core s := rfl
theorem exec_trapEntry (team : Nat) (s : State) : exec (.trapEntry team) s = execTrapEntry team s := rfl
theorem exec_preemptionRequest (gang : Nat) (reason : PreemptReason) (s : State) : exec (.preemptionRequest gang reason) s = execPreemptionRequest gang reason s := rfl
theorem exec_preemptionEntry (gang : Nat) (s : State) : exec (.preemptionEntry gang) s = execPreemptionEntry gang s := rfl
theorem exec_forcedPreemption (gang : Nat) (s : State) : exec (.forcedPreemption gang) s = execForcedPreemption gang s := rfl
theorem exec_systemModeOverrun (team : Nat) (s : State) : exec (.systemModeOverrun team) s = execSystemModeOverrun team s := rfl
theorem exec_restoreEntry (team : Nat) (s : State) : exec (.restoreEntry team) s = execRestoreEntry team s := rfl
theorem exec_qtail (q : BitVec 6) (value : W64) (s : State) : exec (.qtail q value) s = execQtail q value s := rfl
theorem exec_packetAcceptance (q : BitVec 6) (s : State) : exec (.packetAcceptance q) s = execPacketAcceptance q s := rfl
theorem exec_teamStart (gang : Nat) (s : State) : exec (.teamStart gang) s = execTeamStart gang s := rfl
theorem exec_teamEnd (team : Nat) (s : State) : exec (.teamEnd team) s = execTeamEnd team s := rfl
theorem exec_gridRetirement (seq : Nat) (s : State) : exec (.gridRetirement seq) s = execGridRetirement seq s := rfl
theorem exec_teamStop (team : Nat) (s : State) : exec (.teamStop team) s = execTeamStop team s := rfl
theorem exec_preempt (value : W64) (s : State) : exec (.preempt value) s = execPreempt value s := rfl
theorem exec_vaultReport (die : BitVec 2) (vault : BitVec 6) (layers : List Int) (s : State) : exec (.vaultReport die vault layers) s = execVaultReport die vault layers s := rfl
theorem exec_migrationScan (die : BitVec 2) (s : State) : exec (.migrationScan die) s = execMigrationScan die s := rfl
theorem exec_priorityPreemption (die : BitVec 2) (s : State) : exec (.priorityPreemption die) s = execPriorityPreemption die s := rfl
theorem exec_reservationGrant (cluster : BitVec 6) (s : State) : exec (.reservationGrant cluster) s = execReservationGrant cluster s := rfl
theorem exec_starvation (cluster : BitVec 6) (op : Nat) (s : State) : exec (.starvation cluster op) s = execStarvation cluster op s := rfl
theorem exec_gatherDone (cluster : BitVec 6) (op : Nat) (s : State) : exec (.gatherDone cluster op) s = execGatherDone cluster op s := rfl
theorem exec_subarrayWake (cluster : BitVec 6) (op : Nat) (s : State) : exec (.subarrayWake cluster op) s = execSubarrayWake cluster op s := rfl
theorem exec_subarrayGating (core : BitVec 8) (s : State) : exec (.subarrayGating core) s = execSubarrayGating core s := rfl
theorem exec_taperVerdict (cluster : BitVec 6) (op : Nat) (claims : List SumError) (residueFired : Bool) (s : State) : exec (.taperVerdict cluster op claims residueFired) s = execTaperVerdict cluster op claims residueFired s := rfl
theorem exec_copyExecution (cluster : BitVec 6) (s : State) : exec (.copyExecution cluster) s = execCopyExecution cluster s := rfl
theorem exec_engineCompletion (cluster : BitVec 6) (op : Nat) (s : State) : exec (.engineCompletion cluster op) s = execEngineCompletion cluster op s := rfl
theorem exec_phaseRelease (team : Nat) (s : State) : exec (.phaseRelease team) s = execPhaseRelease team s := rfl
theorem exec_publishCompletion (team : Nat) (s : State) : exec (.publishCompletion team) s = execPublishCompletion team s := rfl
theorem exec_windowWithdrawal (gang : Nat) (base : Nat) (s : State) : exec (.windowWithdrawal gang base) s = execWindowWithdrawal gang base s := rfl
theorem exec_txCommit (cluster : BitVec 6) (s : State) : exec (.txCommit cluster) s = execTxCommit cluster s := rfl
theorem exec_amoPerform (n : Nat) (s : State) : exec (.amoPerform n) s = execAmoPerform n s := rfl
theorem exec_detBoundary (seq : Nat) (s : State) : exec (.detBoundary seq) s = execDetBoundary seq s := rfl
theorem exec_tlbictl (value : W64) (s : State) : exec (.tlbictl value) s = execTlbictl value s := rfl
theorem exec_asidtab (value : W64) (s : State) : exec (.asidtab value) s = execAsidtab value s := rfl
theorem exec_fqresp (value : W64) (s : State) : exec (.fqresp value) s = execFqresp value s := rfl
theorem exec_softError (site : ErrorSite) (corrected : Bool) (s : State) : exec (.softError site corrected) s = execSoftError site corrected s := rfl
theorem exec_phaseFailure (die : BitVec 2) (quadrant : BitVec 2) (s : State) : exec (.phaseFailure die quadrant) s = execPhaseFailure die quadrant s := rfl
theorem exec_qcapUpdate (die : BitVec 2) (watts : BitVec 16) (floor : Bool) (s : State) : exec (.qcapUpdate die watts floor) s = execQcapUpdate die watts floor s := rfl
theorem exec_qcapRise (die : BitVec 2) (s : State) : exec (.qcapRise die) s = execQcapRise die s := rfl
theorem exec_currentGrant (cluster : BitVec 6) (work : CurrentWork) (s : State) : exec (.currentGrant cluster work) s = execCurrentGrant cluster work s := rfl
theorem exec_moduleReset (first : StageImage) (later : List StageImage) (s : State) :
    exec (.moduleReset first later) s = execModuleReset first later s := rfl
theorem exec_hostApertureAccess (bulk : Bool) (offset : Nat) (op : HostOp) (s : State) : exec (.hostApertureAccess bulk offset op) s = execHostApertureAccess bulk offset op s := rfl
theorem exec_registerWrite (offset : Nat) (bytes : List Byte) (s : State) : exec (.registerWrite offset bytes) s = execRegisterWrite offset bytes s := rfl
theorem exec_attctlGo (value : W64) (s : State) : exec (.attctlGo value) s = execAttctlGo value s := rfl
theorem exec_attestationDone (s : State) : exec (.attestationDone) s = execAttestationDone s := rfl
theorem exec_telemetryUpdate (samples : List Sample) (s : State) : exec (.telemetryUpdate samples) s = execTelemetryUpdate samples s := rfl
theorem exec_modulePowerCap (watts : Nat) (s : State) : exec (.modulePowerCap watts) s = execModulePowerCap watts s := rfl
theorem exec_capEnforcement (inputWatts : Nat) (s : State) : exec (.capEnforcement inputWatts) s = execCapEnforcement inputWatts s := rfl
theorem exec_destinationAcceptance (t : Transit) (crc : CrcResult) (s : State) : exec (.destinationAcceptance t crc) s = execDestinationAcceptance t crc s := rfl
theorem exec_peerInvalidation (region : Nat) (s : State) : exec (.peerInvalidation region) s = execPeerInvalidation region s := rfl
theorem exec_invalidationAck (plane : BitVec 6) (region : Nat) (s : State) : exec (.invalidationAck plane region) s = execInvalidationAck plane region s := rfl
theorem exec_fmodWrite (value : W64) (s : State) : exec (.fmodWrite value) s = execFmodWrite value s := rfl
theorem exec_routeWrite (m : BitVec 12) (value : W64) (s : State) : exec (.routeWrite m value) s = execRouteWrite m value s := rfl
theorem exec_noUsablePlaneTimeout (m : BitVec 12) (s : State) : exec (.noUsablePlaneTimeout m) s = execNoUsablePlaneTimeout m s := rfl
theorem exec_deathNotice (m : BitVec 12) (boundary : BitVec 32) (s : State) : exec (.deathNotice m boundary) s = execDeathNotice m boundary s := rfl
theorem exec_boundaryMarker (e : BitVec 32) (s : State) : exec (.boundaryMarker e) s = execBoundaryMarker e s := rfl
theorem exec_layerRailFault (die : BitVec 2) (layer : BitVec 3) (millivolts : BitVec 32) (s : State) : exec (.layerRailFault die layer millivolts) s = execLayerRailFault die layer millivolts s := rfl
theorem exec_burstExpiry (cluster : BitVec 6) (work : CurrentWork) (renew : Bool) (s : State) : exec (.burstExpiry cluster work renew) s = execBurstExpiry cluster work renew s := rfl
theorem exec_meterWindow (port : BitVec 6) (s : State) : exec (.meterWindow port) s = execMeterWindow port s := rfl
theorem exec_marginPublish (port : BitVec 6) (margin0 margin1 : BitVec 8) (s : State) : exec (.marginPublish port margin0 margin1) s = execMarginPublish port margin0 margin1 s := rfl
theorem exec_marginWarning (port : BitVec 6) (s : State) : exec (.marginWarning port) s = execMarginWarning port s := rfl
theorem exec_laneRemoval (port : BitVec 6) (lane1 : Bool) (s : State) : exec (.laneRemoval port lane1) s = execLaneRemoval port lane1 s := rfl
theorem exec_laneRetrain (port : BitVec 6) (lane1 : Bool) (s : State) : exec (.laneRetrain port lane1) s = execLaneRetrain port lane1 s := rfl
theorem exec_laneReturn (port : BitVec 6) (lane1 : Bool) (s : State) : exec (.laneReturn port lane1) s = execLaneReturn port lane1 s := rfl
theorem exec_switchRemovalReport (plane : BitVec 6) (s : State) : exec (.switchRemovalReport plane) s = execSwitchRemovalReport plane s := rfl
theorem exec_translationWalk (s : State) : exec (.translationWalk) s = execTranslationWalk s := rfl
theorem exec_dependenceEvaluation (s : State) : exec (.dependenceEvaluation) s = execDependenceEvaluation s := rfl
theorem exec_selection (s : State) : exec (.selection) s = execSelection s := rfl
theorem exec_effectiveLevelAging (s : State) : exec (.effectiveLevelAging) s = execEffectiveLevelAging s := rfl
theorem exec_gangOffer (s : State) : exec (.gangOffer) s = execGangOffer s := rfl
theorem exec_gangReoffer (s : State) : exec (.gangReoffer) s = execGangReoffer s := rfl
theorem exec_tallowTick (s : State) : exec (.tallowTick) s = execTallowTick s := rfl
theorem exec_refreshCharge (s : State) : exec (.refreshCharge) s = execRefreshCharge s := rfl
theorem exec_tlbInvalidationDone (s : State) : exec (.tlbInvalidationDone) s = execTlbInvalidationDone s := rfl
theorem exec_hostLinkLoss (s : State) : exec (.hostLinkLoss) s = execHostLinkLoss s := rfl
theorem exec_heartbeat (s : State) : exec (.heartbeat) s = execHeartbeat s := rfl
theorem exec_boundaryAck (s : State) : exec (.boundaryAck) s = execBoundaryAck s := rfl

end

end Sys2Proof.Machine
end

