-- ==== Sys2Proof/Laws/Formats.lean ====
section
/-! SUPPORT. The formats of the instruction word: the fields taken out of a packed word are the fields packed. -/

namespace Sys2Proof

theorem S3.coding (f : S3) (maj : BitVec 6) (fn : BitVec 3) (w : W32) (h : w = f.pack maj fn) :
    S3.unpack w = f ∧ majOf w = maj ∧ fieldOf w 30 2 = f.sv ∧ fieldOf w 0 3 = fn := by
  subst h
  obtain ⟨sv, d, a, b⟩ := f
  simp only [S3.unpack, S3.pack, fieldOf, majOf, S3.mk.injEq]
  refine ⟨⟨?_, ?_, ?_, ?_⟩, ?_, ?_, ?_⟩
  all_goals
    first
    | (apply BitVec.eq_of_getLsbD_eq
       intro i hi
       simp only [BitVec.getLsbD_extractLsb', BitVec.getLsbD_append, hi, decide_true, Bool.true_and]
       repeat first | rw [if_neg (by omega)] | rw [if_pos (by omega)]
       congr 1; omega)
    | (simp only [BitVec.getLsbD_append]; simp)

theorem SI.coding (f : SI) (maj : BitVec 6) (w : W32) (h : w = f.pack maj) :
    SI.unpack w = f ∧ majOf w = maj ∧ fieldOf w 30 2 = f.sv := by
  subst h
  obtain ⟨sv, d, a, i⟩ := f
  simp only [SI.unpack, SI.pack, fieldOf, majOf, SI.mk.injEq]
  refine ⟨⟨?_, ?_, ?_, ?_⟩, ?_, ?_⟩
  all_goals
    first
    | (apply BitVec.eq_of_getLsbD_eq
       intro i hi
       simp only [BitVec.getLsbD_extractLsb', BitVec.getLsbD_append, hi, decide_true, Bool.true_and]
       repeat first | rw [if_neg (by omega)] | rw [if_pos (by omega)]
       congr 1; omega)
    | (simp only [BitVec.getLsbD_append]; simp)

theorem SH.coding (f : SH) (maj : BitVec 6) (w : W32) (h : w = f.pack maj) :
    SH.unpack w = f ∧ majOf w = maj ∧ fieldOf w 30 2 = f.sv := by
  subst h
  obtain ⟨sv, d, a, i⟩ := f
  simp only [SH.unpack, SH.pack, fieldOf, majOf, SH.mk.injEq]
  refine ⟨⟨?_, ?_, ?_, ?_⟩, ?_, ?_⟩
  all_goals
    first
    | (apply BitVec.eq_of_getLsbD_eq
       intro i hi
       simp only [BitVec.getLsbD_extractLsb', BitVec.getLsbD_append, hi, decide_true, Bool.true_and]
       repeat first | rw [if_neg (by omega)] | rw [if_pos (by omega)]
       congr 1; omega)
    | (simp only [BitVec.getLsbD_append]; simp)

theorem LI.coding (f : LI) (maj : BitVec 6) (w : W32) (h : w = f.pack maj) :
    LI.unpack w = f ∧ majOf w = maj ∧ fieldOf w 30 2 = f.sv := by
  subst h
  obtain ⟨sv, d, i⟩ := f
  simp only [LI.unpack, LI.pack, fieldOf, majOf, LI.mk.injEq]
  refine ⟨⟨?_, ?_, ?_⟩, ?_, ?_⟩
  all_goals
    first
    | (apply BitVec.eq_of_getLsbD_eq
       intro i hi
       simp only [BitVec.getLsbD_extractLsb', BitVec.getLsbD_append, hi, decide_true, Bool.true_and]
       repeat first | rw [if_neg (by omega)] | rw [if_pos (by omega)]
       congr 1; omega)
    | (simp only [BitVec.getLsbD_append]; simp)

theorem CS.coding (f : CS) (maj : BitVec 6) (w : W32) (h : w = f.pack maj) :
    CS.unpack w = f ∧ majOf w = maj ∧ fieldOf w 30 2 = f.sv := by
  subst h
  obtain ⟨sv, d, a, b, c⟩ := f
  simp only [CS.unpack, CS.pack, fieldOf, majOf, CS.mk.injEq]
  refine ⟨⟨?_, ?_, ?_, ?_, ?_⟩, ?_, ?_⟩
  all_goals
    first
    | (apply BitVec.eq_of_getLsbD_eq
       intro i hi
       simp only [BitVec.getLsbD_extractLsb', BitVec.getLsbD_append, hi, decide_true, Bool.true_and]
       repeat first | rw [if_neg (by omega)] | rw [if_pos (by omega)]
       congr 1; omega)
    | (simp only [BitVec.getLsbD_append]; simp)

theorem FS.coding (f : FS) (maj : BitVec 6) (fn : BitVec 6) (w : W32) (h : w = f.pack maj fn) :
    FS.unpack w = f ∧ majOf w = maj ∧ fieldOf w 30 2 = f.sv ∧ fieldOf w 4 6 = fn := by
  subst h
  obtain ⟨sv, d, a, l⟩ := f
  simp only [FS.unpack, FS.pack, fieldOf, flagOf, majOf, FS.mk.injEq]
  refine ⟨⟨?_, ?_, ?_, ?_⟩, ?_, ?_, ?_⟩
  all_goals
    first
    | (apply BitVec.eq_of_getLsbD_eq
       intro i hi
       simp only [BitVec.getLsbD_extractLsb', BitVec.getLsbD_append, hi, decide_true, Bool.true_and]
       repeat first | rw [if_neg (by omega)] | rw [if_pos (by omega)]
       congr 1; omega)
    | (simp only [BitVec.getLsbD_append]; simp)

theorem BX.coding (f : BX) (maj : BitVec 6) (w : W32) (h : w = f.pack maj) :
    BX.unpack w = f ∧ majOf w = maj ∧ fieldOf w 30 2 = f.sv := by
  subst h
  obtain ⟨sv, s, o⟩ := f
  simp only [BX.unpack, BX.pack, fieldOf, majOf, BX.mk.injEq]
  refine ⟨⟨?_, ?_, ?_⟩, ?_, ?_⟩
  all_goals
    first
    | (apply BitVec.eq_of_getLsbD_eq
       intro i hi
       simp only [BitVec.getLsbD_extractLsb', BitVec.getLsbD_append, hi, decide_true, Bool.true_and]
       repeat first | rw [if_neg (by omega)] | rw [if_pos (by omega)]
       congr 1; omega)
    | (simp only [BitVec.getLsbD_append]; simp)

theorem EN.coding (f : EN) (maj : BitVec 6) (fn : BitVec 2) (w : W32) (h : w = f.pack maj fn) :
    EN.unpack w = f ∧ majOf w = maj ∧ fieldOf w 30 2 = f.sv ∧ fieldOf w 4 2 = fn := by
  subst h
  obtain ⟨sv, a, b, c, h⟩ := f
  simp only [EN.unpack, EN.pack, fieldOf, majOf, EN.mk.injEq]
  refine ⟨⟨?_, ?_, ?_, ?_, ?_⟩, ?_, ?_, ?_⟩
  all_goals
    first
    | (apply BitVec.eq_of_getLsbD_eq
       intro i hi
       simp only [BitVec.getLsbD_extractLsb', BitVec.getLsbD_append, hi, decide_true, Bool.true_and]
       repeat first | rw [if_neg (by omega)] | rw [if_pos (by omega)]
       congr 1; omega)
    | (simp only [BitVec.getLsbD_append]; simp)

theorem V3.coding (f : V3) (maj : BitVec 6) (fn : BitVec 1) (w : W32) (h : w = f.pack maj fn) :
    V3.unpack w = f ∧ majOf w = maj ∧ fieldOf w 30 2 = f.sv ∧ fieldOf w 0 1 = fn := by
  subst h
  obtain ⟨sv, d, a, b, l, m⟩ := f
  simp only [V3.unpack, V3.pack, fieldOf, flagOf, majOf, V3.mk.injEq]
  refine ⟨⟨?_, ?_, ?_, ?_, ?_, ?_⟩, ?_, ?_, ?_⟩
  all_goals
    first
    | (apply BitVec.eq_of_getLsbD_eq
       intro i hi
       simp only [BitVec.getLsbD_extractLsb', BitVec.getLsbD_append, hi, decide_true, Bool.true_and]
       repeat first | rw [if_neg (by omega)] | rw [if_pos (by omega)]
       congr 1; omega)
    | (simp only [BitVec.getLsbD_append]; simp)

theorem FL.coding (f : FL) (maj : BitVec 6) (fn : BitVec 5) (w : W32) (h : w = f.pack maj fn) :
    FL.unpack w = f ∧ majOf w = maj ∧ fieldOf w 30 2 = f.sv ∧ fieldOf w 5 5 = fn := by
  subst h
  obtain ⟨sv, d, a, l, h⟩ := f
  simp only [FL.unpack, FL.pack, fieldOf, flagOf, majOf, FL.mk.injEq]
  refine ⟨⟨?_, ?_, ?_, ?_, ?_⟩, ?_, ?_, ?_⟩
  all_goals
    first
    | (apply BitVec.eq_of_getLsbD_eq
       intro i hi
       simp only [BitVec.getLsbD_extractLsb', BitVec.getLsbD_append, hi, decide_true, Bool.true_and]
       repeat first | rw [if_neg (by omega)] | rw [if_pos (by omega)]
       congr 1; omega)
    | (simp only [BitVec.getLsbD_append]; simp)

theorem CVT.coding (f : CVT) (maj : BitVec 6) (w : W32) (h : w = f.pack maj) :
    CVT.unpack w = f ∧ majOf w = maj ∧ fieldOf w 30 2 = f.sv := by
  subst h
  obtain ⟨sv, d, a, s, t, l⟩ := f
  simp only [CVT.unpack, CVT.pack, fieldOf, flagOf, majOf, CVT.mk.injEq]
  refine ⟨⟨?_, ?_, ?_, ?_, ?_, ?_⟩, ?_, ?_⟩
  all_goals
    first
    | (apply BitVec.eq_of_getLsbD_eq
       intro i hi
       simp only [BitVec.getLsbD_extractLsb', BitVec.getLsbD_append, hi, decide_true, Bool.true_and]
       repeat first | rw [if_neg (by omega)] | rw [if_pos (by omega)]
       congr 1; omega)
    | (simp only [BitVec.getLsbD_append]; simp)

theorem VI.coding (f : VI) (maj : BitVec 6) (w : W32) (h : w = f.pack maj) :
    VI.unpack w = f ∧ majOf w = maj ∧ fieldOf w 30 2 = f.sv := by
  subst h
  obtain ⟨sv, d, a, i, l⟩ := f
  simp only [VI.unpack, VI.pack, fieldOf, flagOf, majOf, VI.mk.injEq]
  refine ⟨⟨?_, ?_, ?_, ?_, ?_⟩, ?_, ?_⟩
  all_goals
    first
    | (apply BitVec.eq_of_getLsbD_eq
       intro i hi
       simp only [BitVec.getLsbD_extractLsb', BitVec.getLsbD_append, hi, decide_true, Bool.true_and]
       repeat first | rw [if_neg (by omega)] | rw [if_pos (by omega)]
       congr 1; omega)
    | (simp only [BitVec.getLsbD_append]; simp)

theorem QN.coding (f : QN) (maj : BitVec 6) (w : W32) (h : w = f.pack maj) :
    QN.unpack w = f ∧ majOf w = maj ∧ fieldOf w 30 2 = f.sv := by
  subst h
  obtain ⟨sv, d, a, b, f⟩ := f
  simp only [QN.unpack, QN.pack, fieldOf, majOf, QN.mk.injEq]
  refine ⟨⟨?_, ?_, ?_, ?_, ?_⟩, ?_, ?_⟩
  all_goals
    first
    | (apply BitVec.eq_of_getLsbD_eq
       intro i hi
       simp only [BitVec.getLsbD_extractLsb', BitVec.getLsbD_append, hi, decide_true, Bool.true_and]
       repeat first | rw [if_neg (by omega)] | rw [if_pos (by omega)]
       congr 1; omega)
    | (simp only [BitVec.getLsbD_append]; simp)

theorem MV.coding (f : MV) (maj : BitVec 6) (w : W32) (h : w = f.pack maj) :
    MV.unpack w = f ∧ majOf w = maj ∧ fieldOf w 30 2 = f.sv := by
  subst h
  obtain ⟨sv, d, a, s, h⟩ := f
  simp only [MV.unpack, MV.pack, fieldOf, majOf, MV.mk.injEq]
  refine ⟨⟨?_, ?_, ?_, ?_, ?_⟩, ?_, ?_⟩
  all_goals
    first
    | (apply BitVec.eq_of_getLsbD_eq
       intro i hi
       simp only [BitVec.getLsbD_extractLsb', BitVec.getLsbD_append, hi, decide_true, Bool.true_and]
       repeat first | rw [if_neg (by omega)] | rw [if_pos (by omega)]
       congr 1; omega)
    | (simp only [BitVec.getLsbD_append]; simp)

theorem MS.coding (f : MS) (maj : BitVec 6) (fn : BitVec 1) (w : W32) (h : w = f.pack maj fn) :
    MS.unpack w = f ∧ majOf w = maj ∧ fieldOf w 30 2 = f.sv ∧ fieldOf w 23 1 = fn := by
  subst h
  obtain ⟨sv, d, a, s, h⟩ := f
  simp only [MS.unpack, MS.pack, fieldOf, majOf, MS.mk.injEq]
  refine ⟨⟨?_, ?_, ?_, ?_, ?_⟩, ?_, ?_, ?_⟩
  all_goals
    first
    | (apply BitVec.eq_of_getLsbD_eq
       intro i hi
       simp only [BitVec.getLsbD_extractLsb', BitVec.getLsbD_append, hi, decide_true, Bool.true_and]
       repeat first | rw [if_neg (by omega)] | rw [if_pos (by omega)]
       congr 1; omega)
    | (simp only [BitVec.getLsbD_append]; simp)

theorem CA.coding (f : CA) (maj : BitVec 6) (fn : BitVec 7) (w : W32) (h : w = f.pack maj fn) :
    CA.unpack w = f ∧ majOf w = maj ∧ fieldOf w 30 2 = f.sv ∧ fieldOf w 17 7 = fn := by
  subst h
  obtain ⟨sv, a, s, h⟩ := f
  simp only [CA.unpack, CA.pack, fieldOf, majOf, CA.mk.injEq]
  refine ⟨⟨?_, ?_, ?_, ?_⟩, ?_, ?_, ?_⟩
  all_goals
    first
    | (apply BitVec.eq_of_getLsbD_eq
       intro i hi
       simp only [BitVec.getLsbD_extractLsb', BitVec.getLsbD_append, hi, decide_true, Bool.true_and]
       repeat first | rw [if_neg (by omega)] | rw [if_pos (by omega)]
       congr 1; omega)
    | (simp only [BitVec.getLsbD_append]; simp)

theorem AM.coding (f : AM) (maj : BitVec 6) (fn : BitVec 3) (w : W32) (h : w = f.pack maj fn) :
    AM.unpack w = f ∧ majOf w = maj ∧ fieldOf w 30 2 = f.sv ∧ fieldOf w 9 3 = fn := by
  subst h
  obtain ⟨sv, d, s, q, r, h⟩ := f
  simp only [AM.unpack, AM.pack, fieldOf, flagOf, majOf, AM.mk.injEq]
  refine ⟨⟨?_, ?_, ?_, ?_, ?_, ?_⟩, ?_, ?_, ?_⟩
  all_goals
    first
    | (apply BitVec.eq_of_getLsbD_eq
       intro i hi
       simp only [BitVec.getLsbD_extractLsb', BitVec.getLsbD_append, hi, decide_true, Bool.true_and]
       repeat first | rw [if_neg (by omega)] | rw [if_pos (by omega)]
       congr 1; omega)
    | (simp only [BitVec.getLsbD_append]; simp)

theorem RD.coding (f : RD) (maj : BitVec 6) (fn : BitVec 1) (w : W32) (h : w = f.pack maj fn) :
    RD.unpack w = f ∧ majOf w = maj ∧ fieldOf w 30 2 = f.sv ∧ fieldOf w 11 1 = fn := by
  subst h
  obtain ⟨sv, d, t, s, h⟩ := f
  simp only [RD.unpack, RD.pack, fieldOf, flagOf, majOf, RD.mk.injEq]
  refine ⟨⟨?_, ?_, ?_, ?_, ?_⟩, ?_, ?_, ?_⟩
  all_goals
    first
    | (apply BitVec.eq_of_getLsbD_eq
       intro i hi
       simp only [BitVec.getLsbD_extractLsb', BitVec.getLsbD_append, hi, decide_true, Bool.true_and]
       repeat first | rw [if_neg (by omega)] | rw [if_pos (by omega)]
       congr 1; omega)
    | (simp only [BitVec.getLsbD_append]; simp)

theorem SY.coding (f : SY) (maj : BitVec 6) (fn : BitVec 8) (w : W32) (h : w = f.pack maj fn) :
    SY.unpack w = f ∧ majOf w = maj ∧ fieldOf w 30 2 = f.sv ∧ fieldOf w 16 8 = fn := by
  subst h
  obtain ⟨sv⟩ := f
  simp only [SY.unpack, SY.pack, fieldOf, majOf, SY.mk.injEq]
  refine ⟨?_, ?_, ?_, ?_⟩
  all_goals
    first
    | (apply BitVec.eq_of_getLsbD_eq
       intro i hi
       simp only [BitVec.getLsbD_extractLsb', BitVec.getLsbD_append, hi, decide_true, Bool.true_and]
       repeat first | rw [if_neg (by omega)] | rw [if_pos (by omega)]
       congr 1; omega)
    | (simp only [BitVec.getLsbD_append]; simp)

theorem SYI.coding (f : SYI) (maj : BitVec 6) (fn : BitVec 8) (w : W32) (h : w = f.pack maj fn) :
    SYI.unpack w = f ∧ majOf w = maj ∧ fieldOf w 30 2 = f.sv ∧ fieldOf w 16 8 = fn := by
  subst h
  obtain ⟨sv, i⟩ := f
  simp only [SYI.unpack, SYI.pack, fieldOf, majOf, SYI.mk.injEq]
  refine ⟨⟨?_, ?_⟩, ?_, ?_, ?_⟩
  all_goals
    first
    | (apply BitVec.eq_of_getLsbD_eq
       intro i hi
       simp only [BitVec.getLsbD_extractLsb', BitVec.getLsbD_append, hi, decide_true, Bool.true_and]
       repeat first | rw [if_neg (by omega)] | rw [if_pos (by omega)]
       congr 1; omega)
    | (simp only [BitVec.getLsbD_append]; simp)

theorem SYS.coding (f : SYS) (maj : BitVec 6) (fn : BitVec 8) (w : W32) (h : w = f.pack maj fn) :
    SYS.unpack w = f ∧ majOf w = maj ∧ fieldOf w 30 2 = f.sv ∧ fieldOf w 16 8 = fn := by
  subst h
  obtain ⟨sv, s⟩ := f
  simp only [SYS.unpack, SYS.pack, fieldOf, majOf, SYS.mk.injEq]
  refine ⟨⟨?_, ?_⟩, ?_, ?_, ?_⟩
  all_goals
    first
    | (apply BitVec.eq_of_getLsbD_eq
       intro i hi
       simp only [BitVec.getLsbD_extractLsb', BitVec.getLsbD_append, hi, decide_true, Bool.true_and]
       repeat first | rw [if_neg (by omega)] | rw [if_pos (by omega)]
       congr 1; omega)
    | (simp only [BitVec.getLsbD_append]; simp)

theorem SYR.coding (f : SYR) (maj : BitVec 6) (fn : BitVec 8) (w : W32) (h : w = f.pack maj fn) :
    SYR.unpack w = f ∧ majOf w = maj ∧ fieldOf w 30 2 = f.sv ∧ fieldOf w 16 8 = fn := by
  subst h
  obtain ⟨sv, s, n⟩ := f
  simp only [SYR.unpack, SYR.pack, fieldOf, majOf, SYR.mk.injEq]
  refine ⟨⟨?_, ?_, ?_⟩, ?_, ?_, ?_⟩
  all_goals
    first
    | (apply BitVec.eq_of_getLsbD_eq
       intro i hi
       simp only [BitVec.getLsbD_extractLsb', BitVec.getLsbD_append, hi, decide_true, Bool.true_and]
       repeat first | rw [if_neg (by omega)] | rw [if_pos (by omega)]
       congr 1; omega)
    | (simp only [BitVec.getLsbD_append]; simp)

theorem SYF.coding (f : SYF) (maj : BitVec 6) (fn : BitVec 8) (w : W32) (h : w = f.pack maj fn) :
    SYF.unpack w = f ∧ majOf w = maj ∧ fieldOf w 30 2 = f.sv ∧ fieldOf w 16 8 = fn := by
  subst h
  obtain ⟨sv, k, o⟩ := f
  simp only [SYF.unpack, SYF.pack, fieldOf, majOf, SYF.mk.injEq]
  refine ⟨⟨?_, ?_, ?_⟩, ?_, ?_, ?_⟩
  all_goals
    first
    | (apply BitVec.eq_of_getLsbD_eq
       intro i hi
       simp only [BitVec.getLsbD_extractLsb', BitVec.getLsbD_append, hi, decide_true, Bool.true_and]
       repeat first | rw [if_neg (by omega)] | rw [if_pos (by omega)]
       congr 1; omega)
    | (simp only [BitVec.getLsbD_append]; simp)

theorem SYC.coding (f : SYC) (maj : BitVec 6) (fn : BitVec 8) (w : W32) (h : w = f.pack maj fn) :
    SYC.unpack w = f ∧ majOf w = maj ∧ fieldOf w 30 2 = f.sv ∧ fieldOf w 16 8 = fn := by
  subst h
  obtain ⟨sv, s, p⟩ := f
  simp only [SYC.unpack, SYC.pack, fieldOf, majOf, SYC.mk.injEq]
  refine ⟨⟨?_, ?_, ?_⟩, ?_, ?_, ?_⟩
  all_goals
    first
    | (apply BitVec.eq_of_getLsbD_eq
       intro i hi
       simp only [BitVec.getLsbD_extractLsb', BitVec.getLsbD_append, hi, decide_true, Bool.true_and]
       repeat first | rw [if_neg (by omega)] | rw [if_pos (by omega)]
       congr 1; omega)
    | (simp only [BitVec.getLsbD_append]; simp)

theorem SYB.coding (f : SYB) (maj : BitVec 6) (fn : BitVec 8) (w : W32) (h : w = f.pack maj fn) :
    SYB.unpack w = f ∧ majOf w = maj ∧ fieldOf w 30 2 = f.sv ∧ fieldOf w 16 8 = fn := by
  subst h
  obtain ⟨sv, i⟩ := f
  simp only [SYB.unpack, SYB.pack, fieldOf, majOf, SYB.mk.injEq]
  refine ⟨⟨?_, ?_⟩, ?_, ?_, ?_⟩
  all_goals
    first
    | (apply BitVec.eq_of_getLsbD_eq
       intro i hi
       simp only [BitVec.getLsbD_extractLsb', BitVec.getLsbD_append, hi, decide_true, Bool.true_and]
       repeat first | rw [if_neg (by omega)] | rw [if_pos (by omega)]
       congr 1; omega)
    | (simp only [BitVec.getLsbD_append]; simp)

theorem SYT.coding (f : SYT) (maj : BitVec 6) (fn : BitVec 8) (w : W32) (h : w = f.pack maj fn) :
    SYT.unpack w = f ∧ majOf w = maj ∧ fieldOf w 30 2 = f.sv ∧ fieldOf w 16 8 = fn := by
  subst h
  obtain ⟨sv, s, i⟩ := f
  simp only [SYT.unpack, SYT.pack, fieldOf, majOf, SYT.mk.injEq]
  refine ⟨⟨?_, ?_, ?_⟩, ?_, ?_, ?_⟩
  all_goals
    first
    | (apply BitVec.eq_of_getLsbD_eq
       intro i hi
       simp only [BitVec.getLsbD_extractLsb', BitVec.getLsbD_append, hi, decide_true, Bool.true_and]
       repeat first | rw [if_neg (by omega)] | rw [if_pos (by omega)]
       congr 1; omega)
    | (simp only [BitVec.getLsbD_append]; simp)

theorem SYA.coding (f : SYA) (maj : BitVec 6) (fn : BitVec 8) (w : W32) (h : w = f.pack maj fn) :
    SYA.unpack w = f ∧ majOf w = maj ∧ fieldOf w 30 2 = f.sv ∧ fieldOf w 16 8 = fn := by
  subst h
  obtain ⟨sv, i⟩ := f
  simp only [SYA.unpack, SYA.pack, fieldOf, majOf, SYA.mk.injEq]
  refine ⟨⟨?_, ?_⟩, ?_, ?_, ?_⟩
  all_goals
    first
    | (apply BitVec.eq_of_getLsbD_eq
       intro i hi
       simp only [BitVec.getLsbD_extractLsb', BitVec.getLsbD_append, hi, decide_true, Bool.true_and]
       repeat first | rw [if_neg (by omega)] | rw [if_pos (by omega)]
       congr 1; omega)
    | (simp only [BitVec.getLsbD_append]; simp)

theorem SYM.coding (f : SYM) (maj : BitVec 6) (fn : BitVec 8) (w : W32) (h : w = f.pack maj fn) :
    SYM.unpack w = f ∧ majOf w = maj ∧ fieldOf w 30 2 = f.sv ∧ fieldOf w 16 8 = fn := by
  subst h
  obtain ⟨sv, s, a⟩ := f
  simp only [SYM.unpack, SYM.pack, fieldOf, majOf, SYM.mk.injEq]
  refine ⟨⟨?_, ?_, ?_⟩, ?_, ?_, ?_⟩
  all_goals
    first
    | (apply BitVec.eq_of_getLsbD_eq
       intro i hi
       simp only [BitVec.getLsbD_extractLsb', BitVec.getLsbD_append, hi, decide_true, Bool.true_and]
       repeat first | rw [if_neg (by omega)] | rw [if_pos (by omega)]
       congr 1; omega)
    | (simp only [BitVec.getLsbD_append]; simp)

end Sys2Proof
end

