-- ==== Sys2Proof/Laws/Table.lean ====
section
/-! SUPPORT. Laws of the finite maps and byte memories: read after write, and that every memory operation keeps the
canonical form. -/

namespace Sys2Proof.Machine

/-! ### Finite maps -/

theorem Tab.find_put_self {α : Type} (t : Tab α) (k : Nat) (v : α) : Tab.find (Tab.put t k v) k = some v := by
  induction t with
  | nil => simp [Tab.put, Tab.find]
  | cons e t ih =>
    obtain ⟨j, w⟩ := e
    simp only [Tab.put]
    split
    · simp [Tab.find]
    · split
      · simp [Tab.find]
      · simp [Tab.find, *]

theorem Tab.find_put_ne {α : Type} (t : Tab α) {k j : Nat} (h : j ≠ k) (v : α) :
    Tab.find (Tab.put t k v) j = Tab.find t j := by
  induction t with
  | nil => simp [Tab.put, Tab.find, h]
  | cons e t ih =>
    obtain ⟨i, w⟩ := e
    simp only [Tab.put]
    split
    · simp [Tab.find, h]
    · split
      · rename_i h2; subst h2; simp [Tab.find, h]
      · simp [Tab.find, ih]

/-- What a map holds after a write. -/
theorem Tab.find_put {α : Type} (t : Tab α) (k j : Nat) (v : α) :
    Tab.find (Tab.put t k v) j = if j = k then some v else Tab.find t j := by
  split
  · next h => subst h; exact Tab.find_put_self t j v
  · next h => exact Tab.find_put_ne t h v

theorem Tab.find_erase {α : Type} (t : Tab α) (k j : Nat) :
    Tab.find (Tab.erase t k) j = if j = k then none else Tab.find t j := by
  induction t with
  | nil => simp [Tab.erase, Tab.find]
  | cons e t ih =>
    obtain ⟨i, w⟩ := e
    simp only [Tab.erase]
    by_cases hk : k = i <;> by_cases hj : j = i <;> simp_all [Tab.find]
    intro h; omega

/-- What a map holds after its entry at `k` is changed. -/
theorem Tab.find_modify {α : Type} (t : Tab α) (k j : Nat) (f : α → α) :
    Tab.find (Tab.modify t k f) j = if j = k then (Tab.find t j).map f else Tab.find t j := by
  unfold Tab.modify
  by_cases h : j = k
  · subst h
    cases hf : Tab.find t j with
    | none => simp [hf]
    | some v => simp [Tab.find_put_self]
  · cases hf : Tab.find t k with
    | none => simp [h]
    | some v => simp [h, Tab.find_put_ne t h]

/-! ### Byte memories -/

/-- A byte read after a write. -/
theorem Memory.read_write (m : Memory) (a c : Nat) (b : Byte) :
    Memory.read (Memory.write m a b) c = if c = a then b else Memory.read m c := by
  unfold Memory.write
  split
  · next h =>
    subst h; unfold Memory.read; rw [Tab.find_erase]; split <;> simp
  · unfold Memory.read; rw [Tab.find_put]; split <;> simp

/-- Keys of a map after a write. -/
theorem Tab.mem_put {α : Type} {t : Tab α} {k : Nat} {v : α} {e : Nat × α} (h : e ∈ Tab.put t k v) :
    e = (k, v) ∨ e ∈ t := by
  induction t with
  | nil => simp [Tab.put] at h; exact .inl h
  | cons x t ih =>
    obtain ⟨j, w⟩ := x
    simp only [Tab.put] at h
    split at h
    · rcases List.mem_cons.1 h with h | h
      · exact .inl h
      · exact .inr h
    · split at h
      · rcases List.mem_cons.1 h with h | h
        · exact .inl h
        · exact .inr (List.mem_cons_of_mem _ h)
      · rcases List.mem_cons.1 h with h | h
        · exact .inr (by simp [h])
        · rcases ih h with h | h
          · exact .inl h
          · exact .inr (List.mem_cons_of_mem _ h)

/-- A write keeps rising keys. -/
theorem Tab.rising_put {α : Type} {t : Tab α} (h : t.Pairwise fun a b => a.1 < b.1) (k : Nat) (v : α) :
    (Tab.put t k v).Pairwise fun a b => a.1 < b.1 := by
  induction t with
  | nil => simp [Tab.put]
  | cons x t ih =>
    obtain ⟨j, w⟩ := x
    rw [List.pairwise_cons] at h
    simp only [Tab.put]
    split
    · next hk =>
      refine List.pairwise_cons.2 ⟨?_, List.pairwise_cons.2 h⟩
      intro e he
      rcases List.mem_cons.1 he with he | he
      · subst he; exact hk
      · exact Nat.lt_trans hk (h.1 e he)
    · split
      · next hk => subst hk; exact List.pairwise_cons.2 h
      · refine List.pairwise_cons.2 ⟨?_, ih h.2⟩
        intro e he
        rcases Tab.mem_put he with he | he
        · subst he; show j < k; omega
        · exact h.1 e he

theorem Tab.erase_sublist {α : Type} (t : Tab α) (k : Nat) : (Tab.erase t k).Sublist t := by
  induction t with
  | nil => simp [Tab.erase]
  | cons x t ih =>
    obtain ⟨j, w⟩ := x
    simp only [Tab.erase]
    split
    · exact ih.cons _
    · exact ih.cons_cons _

theorem Memory.wf_nil : Memory.wf [] := by simp [Memory.wf]

/-- A part of a canonical memory is canonical. -/
theorem Memory.wf_sublist {m n : Memory} (h : n.Sublist m) (hm : Memory.wf m) : Memory.wf n :=
  ⟨hm.1.sublist h, fun c hc => hm.2 c (h.subset hc)⟩

/-- A write of a byte keeps the canonical form. -/
theorem Memory.wf_write {m : Memory} (h : Memory.wf m) (a : Nat) (b : Byte) : Memory.wf (Memory.write m a b) := by
  unfold Memory.write
  split
  · exact Memory.wf_sublist (Tab.erase_sublist m a) h
  · next hb =>
    refine ⟨Tab.rising_put h.1 a b, fun c hc => ?_⟩
    rcases Tab.mem_put hc with hc | hc
    · subst hc; exact hb
    · exact h.2 c hc

theorem Memory.wf_writeLE {m : Memory} (h : Memory.wf m) (a n v : Nat) : Memory.wf (Memory.writeLE m a n v) := by
  induction n generalizing m a v with
  | zero => exact h
  | succ n ih => exact ih (Memory.wf_write h a _) _ _

theorem Memory.wf_writeBytes {m : Memory} (h : Memory.wf m) (a : Nat) (l : List Byte) :
    Memory.wf (Memory.writeBytes m a l) := by
  induction l generalizing m a with
  | nil => exact h
  | cons b l ih => exact ih (Memory.wf_write h a b) _

theorem Memory.wf_writeAt {m : Memory} (h : Memory.wf m) (base : Nat) (l : List (Nat × Byte)) :
    Memory.wf (Memory.writeAt m base l) := by
  induction l generalizing m with
  | nil => exact h
  | cons e l ih => exact ih (Memory.wf_write h _ _)

theorem Memory.wf_clear {m : Memory} (h : Memory.wf m) (a n : Nat) : Memory.wf (Memory.clear m a n) :=
  Memory.wf_sublist List.filter_sublist h

theorem Memory.wf_foldWrite {m : Memory} (h : Memory.wf m) (f : Host.Cell → Nat) (l : List Host.Cell) :
    Memory.wf (l.foldl (fun m c => Memory.write m (f c) c.2) m) := by
  induction l generalizing m with
  | nil => exact h
  | cons c l ih => exact ih (Memory.wf_write h _ _)

theorem Memory.wf_copy {d : Memory} (h : Memory.wf d) (src : Memory) (a b n : Nat) :
    Memory.wf (Memory.copy src a d b n) :=
  Memory.wf_foldWrite (Memory.wf_clear h b n) _ _

/-- A byte read after a list of writes to other addresses. -/
theorem Memory.read_writeAt_ne (m : Memory) (base c : Nat) (l : List (Nat × Byte)) (h : ∀ e ∈ l, c ≠ base + e.1) :
    Memory.read (Memory.writeAt m base l) c = Memory.read m c := by
  induction l generalizing m with
  | nil => rfl
  | cons e l ih =>
    obtain ⟨o, b⟩ := e
    have h1 : c ≠ base + o := h (o, b) (by simp)
    have := ih (Memory.write m (base + o) b) (fun e he => h e (List.mem_cons_of_mem _ he))
    simp only [Memory.writeAt, this, Memory.read_write, if_neg h1]

/-- Little-endian bytes give their number back (R5). -/
theorem leNat_leBytes (n v : Nat) : leNat (leBytes n v) = v % 256 ^ n := by
  induction n generalizing v with
  | zero => simp [leBytes, leNat, Nat.mod_one]
  | succ n ih =>
    simp only [leBytes, leNat, ih, BitVec.toNat_ofNat]
    rw [show 256 ^ (n + 1) = 256 * 256 ^ n from by rw [Nat.pow_succ, Nat.mul_comm], Nat.mod_mul]

end Sys2Proof.Machine
end

