-- ==== Sys2Proof/Laws/State.lean ====
section
/-! SUPPORT. What each named update of the state leaves as it was, one lemma per field, and what it writes. -/

namespace Sys2Proof.Machine

section

set_option Elab.async false

/-! ### setTeam -/

@[simp] theorem State.setTeam_agenda (s : State) (k : Nat) (t : Team) : (s.setTeam k t).agenda = s.agenda := rfl
@[simp] theorem State.setTeam_cur (s : State) (k : Nat) (t : Team) : (s.setTeam k t).cur = s.cur := rfl
@[simp] theorem State.setTeam_cycle (s : State) (k : Nat) (t : Team) : (s.setTeam k t).cycle = s.cycle := rfl
@[simp] theorem State.setTeam_freeIdx (s : State) (k : Nat) (t : Team) : (s.setTeam k t).freeIdx = s.freeIdx := rfl
@[simp] theorem State.setTeam_phys (s : State) (k : Nat) (t : Team) : (s.setTeam k t).phys = s.phys := rfl
@[simp] theorem State.setTeam_physPoison (s : State) (k : Nat) (t : Team) : (s.setTeam k t).physPoison = s.physPoison := rfl
@[simp] theorem State.setTeam_vmem (s : State) (k : Nat) (t : Team) : (s.setTeam k t).vmem = s.vmem := rfl
@[simp] theorem State.setTeam_lines (s : State) (k : Nat) (t : Team) : (s.setTeam k t).lines = s.lines := rfl
@[simp] theorem State.setTeam_tlb (s : State) (k : Nat) (t : Team) : (s.setTeam k t).tlb = s.tlb := rfl
@[simp] theorem State.setTeam_walks (s : State) (k : Nat) (t : Team) : (s.setTeam k t).walks = s.walks := rfl
@[simp] theorem State.setTeam_gangs (s : State) (k : Nat) (t : Team) : (s.setTeam k t).gangs = s.gangs := rfl
@[simp] theorem State.setTeam_grids (s : State) (k : Nat) (t : Team) : (s.setTeam k t).grids = s.grids := rfl
@[simp] theorem State.setTeam_cores (s : State) (k : Nat) (t : Team) : (s.setTeam k t).cores = s.cores := rfl
@[simp] theorem State.setTeam_clusters (s : State) (k : Nat) (t : Team) : (s.setTeam k t).clusters = s.clusters := rfl
@[simp] theorem State.setTeam_dies (s : State) (k : Nat) (t : Team) : (s.setTeam k t).dies = s.dies := rfl
@[simp] theorem State.setTeam_amos (s : State) (k : Nat) (t : Team) : (s.setTeam k t).amos = s.amos := rfl
@[simp] theorem State.setTeam_commits (s : State) (k : Nat) (t : Team) : (s.setTeam k t).commits = s.commits := rfl
@[simp] theorem State.setTeam_holds (s : State) (k : Nat) (t : Team) : (s.setTeam k t).holds = s.holds := rfl
@[simp] theorem State.setTeam_reds (s : State) (k : Nat) (t : Team) : (s.setTeam k t).reds = s.reds := rfl
@[simp] theorem State.setTeam_selfCheck (s : State) (k : Nat) (t : Team) : (s.setTeam k t).selfCheck = s.selfCheck := rfl
@[simp] theorem State.setTeam_front (s : State) (k : Nat) (t : Team) : (s.setTeam k t).front = s.front := rfl
@[simp] theorem State.setTeam_relia (s : State) (k : Nat) (t : Team) : (s.setTeam k t).relia = s.relia := rfl
@[simp] theorem State.setTeam_journal (s : State) (k : Nat) (t : Team) : (s.setTeam k t).journal = s.journal := rfl
@[simp] theorem State.setTeam_power (s : State) (k : Nat) (t : Team) : (s.setTeam k t).power = s.power := rfl
@[simp] theorem State.setTeam_security (s : State) (k : Nat) (t : Team) : (s.setTeam k t).security = s.security := rfl
@[simp] theorem State.setTeam_hostPort (s : State) (k : Nat) (t : Team) : (s.setTeam k t).hostPort = s.hostPort := rfl
@[simp] theorem State.setTeam_fabric (s : State) (k : Nat) (t : Team) : (s.setTeam k t).fabric = s.fabric := rfl

/-! ### modTeam -/

@[simp] theorem State.modTeam_agenda (s : State) (k : Nat) (f : Team → Team) : (s.modTeam k f).agenda = s.agenda := rfl
@[simp] theorem State.modTeam_cur (s : State) (k : Nat) (f : Team → Team) : (s.modTeam k f).cur = s.cur := rfl
@[simp] theorem State.modTeam_cycle (s : State) (k : Nat) (f : Team → Team) : (s.modTeam k f).cycle = s.cycle := rfl
@[simp] theorem State.modTeam_freeIdx (s : State) (k : Nat) (f : Team → Team) : (s.modTeam k f).freeIdx = s.freeIdx := rfl
@[simp] theorem State.modTeam_phys (s : State) (k : Nat) (f : Team → Team) : (s.modTeam k f).phys = s.phys := rfl
@[simp] theorem State.modTeam_physPoison (s : State) (k : Nat) (f : Team → Team) : (s.modTeam k f).physPoison = s.physPoison := rfl
@[simp] theorem State.modTeam_vmem (s : State) (k : Nat) (f : Team → Team) : (s.modTeam k f).vmem = s.vmem := rfl
@[simp] theorem State.modTeam_lines (s : State) (k : Nat) (f : Team → Team) : (s.modTeam k f).lines = s.lines := rfl
@[simp] theorem State.modTeam_tlb (s : State) (k : Nat) (f : Team → Team) : (s.modTeam k f).tlb = s.tlb := rfl
@[simp] theorem State.modTeam_walks (s : State) (k : Nat) (f : Team → Team) : (s.modTeam k f).walks = s.walks := rfl
@[simp] theorem State.modTeam_gangs (s : State) (k : Nat) (f : Team → Team) : (s.modTeam k f).gangs = s.gangs := rfl
@[simp] theorem State.modTeam_grids (s : State) (k : Nat) (f : Team → Team) : (s.modTeam k f).grids = s.grids := rfl
@[simp] theorem State.modTeam_cores (s : State) (k : Nat) (f : Team → Team) : (s.modTeam k f).cores = s.cores := rfl
@[simp] theorem State.modTeam_clusters (s : State) (k : Nat) (f : Team → Team) : (s.modTeam k f).clusters = s.clusters := rfl
@[simp] theorem State.modTeam_dies (s : State) (k : Nat) (f : Team → Team) : (s.modTeam k f).dies = s.dies := rfl
@[simp] theorem State.modTeam_amos (s : State) (k : Nat) (f : Team → Team) : (s.modTeam k f).amos = s.amos := rfl
@[simp] theorem State.modTeam_commits (s : State) (k : Nat) (f : Team → Team) : (s.modTeam k f).commits = s.commits := rfl
@[simp] theorem State.modTeam_holds (s : State) (k : Nat) (f : Team → Team) : (s.modTeam k f).holds = s.holds := rfl
@[simp] theorem State.modTeam_reds (s : State) (k : Nat) (f : Team → Team) : (s.modTeam k f).reds = s.reds := rfl
@[simp] theorem State.modTeam_selfCheck (s : State) (k : Nat) (f : Team → Team) : (s.modTeam k f).selfCheck = s.selfCheck := rfl
@[simp] theorem State.modTeam_front (s : State) (k : Nat) (f : Team → Team) : (s.modTeam k f).front = s.front := rfl
@[simp] theorem State.modTeam_relia (s : State) (k : Nat) (f : Team → Team) : (s.modTeam k f).relia = s.relia := rfl
@[simp] theorem State.modTeam_journal (s : State) (k : Nat) (f : Team → Team) : (s.modTeam k f).journal = s.journal := rfl
@[simp] theorem State.modTeam_power (s : State) (k : Nat) (f : Team → Team) : (s.modTeam k f).power = s.power := rfl
@[simp] theorem State.modTeam_security (s : State) (k : Nat) (f : Team → Team) : (s.modTeam k f).security = s.security := rfl
@[simp] theorem State.modTeam_hostPort (s : State) (k : Nat) (f : Team → Team) : (s.modTeam k f).hostPort = s.hostPort := rfl
@[simp] theorem State.modTeam_fabric (s : State) (k : Nat) (f : Team → Team) : (s.modTeam k f).fabric = s.fabric := rfl

/-! ### setGang -/

@[simp] theorem State.setGang_agenda (s : State) (k : Nat) (g : Gang) : (s.setGang k g).agenda = s.agenda := rfl
@[simp] theorem State.setGang_cur (s : State) (k : Nat) (g : Gang) : (s.setGang k g).cur = s.cur := rfl
@[simp] theorem State.setGang_cycle (s : State) (k : Nat) (g : Gang) : (s.setGang k g).cycle = s.cycle := rfl
@[simp] theorem State.setGang_freeIdx (s : State) (k : Nat) (g : Gang) : (s.setGang k g).freeIdx = s.freeIdx := rfl
@[simp] theorem State.setGang_phys (s : State) (k : Nat) (g : Gang) : (s.setGang k g).phys = s.phys := rfl
@[simp] theorem State.setGang_physPoison (s : State) (k : Nat) (g : Gang) : (s.setGang k g).physPoison = s.physPoison := rfl
@[simp] theorem State.setGang_vmem (s : State) (k : Nat) (g : Gang) : (s.setGang k g).vmem = s.vmem := rfl
@[simp] theorem State.setGang_lines (s : State) (k : Nat) (g : Gang) : (s.setGang k g).lines = s.lines := rfl
@[simp] theorem State.setGang_tlb (s : State) (k : Nat) (g : Gang) : (s.setGang k g).tlb = s.tlb := rfl
@[simp] theorem State.setGang_walks (s : State) (k : Nat) (g : Gang) : (s.setGang k g).walks = s.walks := rfl
@[simp] theorem State.setGang_teams (s : State) (k : Nat) (g : Gang) : (s.setGang k g).teams = s.teams := rfl
@[simp] theorem State.setGang_grids (s : State) (k : Nat) (g : Gang) : (s.setGang k g).grids = s.grids := rfl
@[simp] theorem State.setGang_cores (s : State) (k : Nat) (g : Gang) : (s.setGang k g).cores = s.cores := rfl
@[simp] theorem State.setGang_clusters (s : State) (k : Nat) (g : Gang) : (s.setGang k g).clusters = s.clusters := rfl
@[simp] theorem State.setGang_dies (s : State) (k : Nat) (g : Gang) : (s.setGang k g).dies = s.dies := rfl
@[simp] theorem State.setGang_amos (s : State) (k : Nat) (g : Gang) : (s.setGang k g).amos = s.amos := rfl
@[simp] theorem State.setGang_commits (s : State) (k : Nat) (g : Gang) : (s.setGang k g).commits = s.commits := rfl
@[simp] theorem State.setGang_holds (s : State) (k : Nat) (g : Gang) : (s.setGang k g).holds = s.holds := rfl
@[simp] theorem State.setGang_reds (s : State) (k : Nat) (g : Gang) : (s.setGang k g).reds = s.reds := rfl
@[simp] theorem State.setGang_selfCheck (s : State) (k : Nat) (g : Gang) : (s.setGang k g).selfCheck = s.selfCheck := rfl
@[simp] theorem State.setGang_front (s : State) (k : Nat) (g : Gang) : (s.setGang k g).front = s.front := rfl
@[simp] theorem State.setGang_relia (s : State) (k : Nat) (g : Gang) : (s.setGang k g).relia = s.relia := rfl
@[simp] theorem State.setGang_journal (s : State) (k : Nat) (g : Gang) : (s.setGang k g).journal = s.journal := rfl
@[simp] theorem State.setGang_power (s : State) (k : Nat) (g : Gang) : (s.setGang k g).power = s.power := rfl
@[simp] theorem State.setGang_security (s : State) (k : Nat) (g : Gang) : (s.setGang k g).security = s.security := rfl
@[simp] theorem State.setGang_hostPort (s : State) (k : Nat) (g : Gang) : (s.setGang k g).hostPort = s.hostPort := rfl
@[simp] theorem State.setGang_fabric (s : State) (k : Nat) (g : Gang) : (s.setGang k g).fabric = s.fabric := rfl

/-! ### modGang -/

@[simp] theorem State.modGang_agenda (s : State) (k : Nat) (f : Gang → Gang) : (s.modGang k f).agenda = s.agenda := rfl
@[simp] theorem State.modGang_cur (s : State) (k : Nat) (f : Gang → Gang) : (s.modGang k f).cur = s.cur := rfl
@[simp] theorem State.modGang_cycle (s : State) (k : Nat) (f : Gang → Gang) : (s.modGang k f).cycle = s.cycle := rfl
@[simp] theorem State.modGang_freeIdx (s : State) (k : Nat) (f : Gang → Gang) : (s.modGang k f).freeIdx = s.freeIdx := rfl
@[simp] theorem State.modGang_phys (s : State) (k : Nat) (f : Gang → Gang) : (s.modGang k f).phys = s.phys := rfl
@[simp] theorem State.modGang_physPoison (s : State) (k : Nat) (f : Gang → Gang) : (s.modGang k f).physPoison = s.physPoison := rfl
@[simp] theorem State.modGang_vmem (s : State) (k : Nat) (f : Gang → Gang) : (s.modGang k f).vmem = s.vmem := rfl
@[simp] theorem State.modGang_lines (s : State) (k : Nat) (f : Gang → Gang) : (s.modGang k f).lines = s.lines := rfl
@[simp] theorem State.modGang_tlb (s : State) (k : Nat) (f : Gang → Gang) : (s.modGang k f).tlb = s.tlb := rfl
@[simp] theorem State.modGang_walks (s : State) (k : Nat) (f : Gang → Gang) : (s.modGang k f).walks = s.walks := rfl
@[simp] theorem State.modGang_teams (s : State) (k : Nat) (f : Gang → Gang) : (s.modGang k f).teams = s.teams := rfl
@[simp] theorem State.modGang_grids (s : State) (k : Nat) (f : Gang → Gang) : (s.modGang k f).grids = s.grids := rfl
@[simp] theorem State.modGang_cores (s : State) (k : Nat) (f : Gang → Gang) : (s.modGang k f).cores = s.cores := rfl
@[simp] theorem State.modGang_clusters (s : State) (k : Nat) (f : Gang → Gang) : (s.modGang k f).clusters = s.clusters := rfl
@[simp] theorem State.modGang_dies (s : State) (k : Nat) (f : Gang → Gang) : (s.modGang k f).dies = s.dies := rfl
@[simp] theorem State.modGang_amos (s : State) (k : Nat) (f : Gang → Gang) : (s.modGang k f).amos = s.amos := rfl
@[simp] theorem State.modGang_commits (s : State) (k : Nat) (f : Gang → Gang) : (s.modGang k f).commits = s.commits := rfl
@[simp] theorem State.modGang_holds (s : State) (k : Nat) (f : Gang → Gang) : (s.modGang k f).holds = s.holds := rfl
@[simp] theorem State.modGang_reds (s : State) (k : Nat) (f : Gang → Gang) : (s.modGang k f).reds = s.reds := rfl
@[simp] theorem State.modGang_selfCheck (s : State) (k : Nat) (f : Gang → Gang) : (s.modGang k f).selfCheck = s.selfCheck := rfl
@[simp] theorem State.modGang_front (s : State) (k : Nat) (f : Gang → Gang) : (s.modGang k f).front = s.front := rfl
@[simp] theorem State.modGang_relia (s : State) (k : Nat) (f : Gang → Gang) : (s.modGang k f).relia = s.relia := rfl
@[simp] theorem State.modGang_journal (s : State) (k : Nat) (f : Gang → Gang) : (s.modGang k f).journal = s.journal := rfl
@[simp] theorem State.modGang_power (s : State) (k : Nat) (f : Gang → Gang) : (s.modGang k f).power = s.power := rfl
@[simp] theorem State.modGang_security (s : State) (k : Nat) (f : Gang → Gang) : (s.modGang k f).security = s.security := rfl
@[simp] theorem State.modGang_hostPort (s : State) (k : Nat) (f : Gang → Gang) : (s.modGang k f).hostPort = s.hostPort := rfl
@[simp] theorem State.modGang_fabric (s : State) (k : Nat) (f : Gang → Gang) : (s.modGang k f).fabric = s.fabric := rfl

/-! ### modGrid -/

@[simp] theorem State.modGrid_agenda (s : State) (k : Nat) (f : Grid → Grid) : (s.modGrid k f).agenda = s.agenda := rfl
@[simp] theorem State.modGrid_cur (s : State) (k : Nat) (f : Grid → Grid) : (s.modGrid k f).cur = s.cur := rfl
@[simp] theorem State.modGrid_cycle (s : State) (k : Nat) (f : Grid → Grid) : (s.modGrid k f).cycle = s.cycle := rfl
@[simp] theorem State.modGrid_freeIdx (s : State) (k : Nat) (f : Grid → Grid) : (s.modGrid k f).freeIdx = s.freeIdx := rfl
@[simp] theorem State.modGrid_phys (s : State) (k : Nat) (f : Grid → Grid) : (s.modGrid k f).phys = s.phys := rfl
@[simp] theorem State.modGrid_physPoison (s : State) (k : Nat) (f : Grid → Grid) : (s.modGrid k f).physPoison = s.physPoison := rfl
@[simp] theorem State.modGrid_vmem (s : State) (k : Nat) (f : Grid → Grid) : (s.modGrid k f).vmem = s.vmem := rfl
@[simp] theorem State.modGrid_lines (s : State) (k : Nat) (f : Grid → Grid) : (s.modGrid k f).lines = s.lines := rfl
@[simp] theorem State.modGrid_tlb (s : State) (k : Nat) (f : Grid → Grid) : (s.modGrid k f).tlb = s.tlb := rfl
@[simp] theorem State.modGrid_walks (s : State) (k : Nat) (f : Grid → Grid) : (s.modGrid k f).walks = s.walks := rfl
@[simp] theorem State.modGrid_teams (s : State) (k : Nat) (f : Grid → Grid) : (s.modGrid k f).teams = s.teams := rfl
@[simp] theorem State.modGrid_gangs (s : State) (k : Nat) (f : Grid → Grid) : (s.modGrid k f).gangs = s.gangs := rfl
@[simp] theorem State.modGrid_cores (s : State) (k : Nat) (f : Grid → Grid) : (s.modGrid k f).cores = s.cores := rfl
@[simp] theorem State.modGrid_clusters (s : State) (k : Nat) (f : Grid → Grid) : (s.modGrid k f).clusters = s.clusters := rfl
@[simp] theorem State.modGrid_dies (s : State) (k : Nat) (f : Grid → Grid) : (s.modGrid k f).dies = s.dies := rfl
@[simp] theorem State.modGrid_amos (s : State) (k : Nat) (f : Grid → Grid) : (s.modGrid k f).amos = s.amos := rfl
@[simp] theorem State.modGrid_commits (s : State) (k : Nat) (f : Grid → Grid) : (s.modGrid k f).commits = s.commits := rfl
@[simp] theorem State.modGrid_holds (s : State) (k : Nat) (f : Grid → Grid) : (s.modGrid k f).holds = s.holds := rfl
@[simp] theorem State.modGrid_reds (s : State) (k : Nat) (f : Grid → Grid) : (s.modGrid k f).reds = s.reds := rfl
@[simp] theorem State.modGrid_selfCheck (s : State) (k : Nat) (f : Grid → Grid) : (s.modGrid k f).selfCheck = s.selfCheck := rfl
@[simp] theorem State.modGrid_front (s : State) (k : Nat) (f : Grid → Grid) : (s.modGrid k f).front = s.front := rfl
@[simp] theorem State.modGrid_relia (s : State) (k : Nat) (f : Grid → Grid) : (s.modGrid k f).relia = s.relia := rfl
@[simp] theorem State.modGrid_journal (s : State) (k : Nat) (f : Grid → Grid) : (s.modGrid k f).journal = s.journal := rfl
@[simp] theorem State.modGrid_power (s : State) (k : Nat) (f : Grid → Grid) : (s.modGrid k f).power = s.power := rfl
@[simp] theorem State.modGrid_security (s : State) (k : Nat) (f : Grid → Grid) : (s.modGrid k f).security = s.security := rfl
@[simp] theorem State.modGrid_hostPort (s : State) (k : Nat) (f : Grid → Grid) : (s.modGrid k f).hostPort = s.hostPort := rfl
@[simp] theorem State.modGrid_fabric (s : State) (k : Nat) (f : Grid → Grid) : (s.modGrid k f).fabric = s.fabric := rfl

/-! ### setCore -/

@[simp] theorem State.setCore_agenda (s : State) (c : Nat) (r : CoreRegs) : (s.setCore c r).agenda = s.agenda := rfl
@[simp] theorem State.setCore_cur (s : State) (c : Nat) (r : CoreRegs) : (s.setCore c r).cur = s.cur := rfl
@[simp] theorem State.setCore_cycle (s : State) (c : Nat) (r : CoreRegs) : (s.setCore c r).cycle = s.cycle := rfl
@[simp] theorem State.setCore_freeIdx (s : State) (c : Nat) (r : CoreRegs) : (s.setCore c r).freeIdx = s.freeIdx := rfl
@[simp] theorem State.setCore_phys (s : State) (c : Nat) (r : CoreRegs) : (s.setCore c r).phys = s.phys := rfl
@[simp] theorem State.setCore_physPoison (s : State) (c : Nat) (r : CoreRegs) : (s.setCore c r).physPoison = s.physPoison := rfl
@[simp] theorem State.setCore_vmem (s : State) (c : Nat) (r : CoreRegs) : (s.setCore c r).vmem = s.vmem := rfl
@[simp] theorem State.setCore_lines (s : State) (c : Nat) (r : CoreRegs) : (s.setCore c r).lines = s.lines := rfl
@[simp] theorem State.setCore_tlb (s : State) (c : Nat) (r : CoreRegs) : (s.setCore c r).tlb = s.tlb := rfl
@[simp] theorem State.setCore_walks (s : State) (c : Nat) (r : CoreRegs) : (s.setCore c r).walks = s.walks := rfl
@[simp] theorem State.setCore_teams (s : State) (c : Nat) (r : CoreRegs) : (s.setCore c r).teams = s.teams := rfl
@[simp] theorem State.setCore_gangs (s : State) (c : Nat) (r : CoreRegs) : (s.setCore c r).gangs = s.gangs := rfl
@[simp] theorem State.setCore_grids (s : State) (c : Nat) (r : CoreRegs) : (s.setCore c r).grids = s.grids := rfl
@[simp] theorem State.setCore_clusters (s : State) (c : Nat) (r : CoreRegs) : (s.setCore c r).clusters = s.clusters := rfl
@[simp] theorem State.setCore_dies (s : State) (c : Nat) (r : CoreRegs) : (s.setCore c r).dies = s.dies := rfl
@[simp] theorem State.setCore_amos (s : State) (c : Nat) (r : CoreRegs) : (s.setCore c r).amos = s.amos := rfl
@[simp] theorem State.setCore_commits (s : State) (c : Nat) (r : CoreRegs) : (s.setCore c r).commits = s.commits := rfl
@[simp] theorem State.setCore_holds (s : State) (c : Nat) (r : CoreRegs) : (s.setCore c r).holds = s.holds := rfl
@[simp] theorem State.setCore_reds (s : State) (c : Nat) (r : CoreRegs) : (s.setCore c r).reds = s.reds := rfl
@[simp] theorem State.setCore_selfCheck (s : State) (c : Nat) (r : CoreRegs) : (s.setCore c r).selfCheck = s.selfCheck := rfl
@[simp] theorem State.setCore_front (s : State) (c : Nat) (r : CoreRegs) : (s.setCore c r).front = s.front := rfl
@[simp] theorem State.setCore_relia (s : State) (c : Nat) (r : CoreRegs) : (s.setCore c r).relia = s.relia := rfl
@[simp] theorem State.setCore_journal (s : State) (c : Nat) (r : CoreRegs) : (s.setCore c r).journal = s.journal := rfl
@[simp] theorem State.setCore_power (s : State) (c : Nat) (r : CoreRegs) : (s.setCore c r).power = s.power := rfl
@[simp] theorem State.setCore_security (s : State) (c : Nat) (r : CoreRegs) : (s.setCore c r).security = s.security := rfl
@[simp] theorem State.setCore_hostPort (s : State) (c : Nat) (r : CoreRegs) : (s.setCore c r).hostPort = s.hostPort := rfl
@[simp] theorem State.setCore_fabric (s : State) (c : Nat) (r : CoreRegs) : (s.setCore c r).fabric = s.fabric := rfl

/-! ### modCore -/

@[simp] theorem State.modCore_agenda (s : State) (c : Nat) (f : CoreRegs → CoreRegs) : (s.modCore c f).agenda = s.agenda := rfl
@[simp] theorem State.modCore_cur (s : State) (c : Nat) (f : CoreRegs → CoreRegs) : (s.modCore c f).cur = s.cur := rfl
@[simp] theorem State.modCore_cycle (s : State) (c : Nat) (f : CoreRegs → CoreRegs) : (s.modCore c f).cycle = s.cycle := rfl
@[simp] theorem State.modCore_freeIdx (s : State) (c : Nat) (f : CoreRegs → CoreRegs) : (s.modCore c f).freeIdx = s.freeIdx := rfl
@[simp] theorem State.modCore_phys (s : State) (c : Nat) (f : CoreRegs → CoreRegs) : (s.modCore c f).phys = s.phys := rfl
@[simp] theorem State.modCore_physPoison (s : State) (c : Nat) (f : CoreRegs → CoreRegs) : (s.modCore c f).physPoison = s.physPoison := rfl
@[simp] theorem State.modCore_vmem (s : State) (c : Nat) (f : CoreRegs → CoreRegs) : (s.modCore c f).vmem = s.vmem := rfl
@[simp] theorem State.modCore_lines (s : State) (c : Nat) (f : CoreRegs → CoreRegs) : (s.modCore c f).lines = s.lines := rfl
@[simp] theorem State.modCore_tlb (s : State) (c : Nat) (f : CoreRegs → CoreRegs) : (s.modCore c f).tlb = s.tlb := rfl
@[simp] theorem State.modCore_walks (s : State) (c : Nat) (f : CoreRegs → CoreRegs) : (s.modCore c f).walks = s.walks := rfl
@[simp] theorem State.modCore_teams (s : State) (c : Nat) (f : CoreRegs → CoreRegs) : (s.modCore c f).teams = s.teams := rfl
@[simp] theorem State.modCore_gangs (s : State) (c : Nat) (f : CoreRegs → CoreRegs) : (s.modCore c f).gangs = s.gangs := rfl
@[simp] theorem State.modCore_grids (s : State) (c : Nat) (f : CoreRegs → CoreRegs) : (s.modCore c f).grids = s.grids := rfl
@[simp] theorem State.modCore_clusters (s : State) (c : Nat) (f : CoreRegs → CoreRegs) : (s.modCore c f).clusters = s.clusters := rfl
@[simp] theorem State.modCore_dies (s : State) (c : Nat) (f : CoreRegs → CoreRegs) : (s.modCore c f).dies = s.dies := rfl
@[simp] theorem State.modCore_amos (s : State) (c : Nat) (f : CoreRegs → CoreRegs) : (s.modCore c f).amos = s.amos := rfl
@[simp] theorem State.modCore_commits (s : State) (c : Nat) (f : CoreRegs → CoreRegs) : (s.modCore c f).commits = s.commits := rfl
@[simp] theorem State.modCore_holds (s : State) (c : Nat) (f : CoreRegs → CoreRegs) : (s.modCore c f).holds = s.holds := rfl
@[simp] theorem State.modCore_reds (s : State) (c : Nat) (f : CoreRegs → CoreRegs) : (s.modCore c f).reds = s.reds := rfl
@[simp] theorem State.modCore_selfCheck (s : State) (c : Nat) (f : CoreRegs → CoreRegs) : (s.modCore c f).selfCheck = s.selfCheck := rfl
@[simp] theorem State.modCore_front (s : State) (c : Nat) (f : CoreRegs → CoreRegs) : (s.modCore c f).front = s.front := rfl
@[simp] theorem State.modCore_relia (s : State) (c : Nat) (f : CoreRegs → CoreRegs) : (s.modCore c f).relia = s.relia := rfl
@[simp] theorem State.modCore_journal (s : State) (c : Nat) (f : CoreRegs → CoreRegs) : (s.modCore c f).journal = s.journal := rfl
@[simp] theorem State.modCore_power (s : State) (c : Nat) (f : CoreRegs → CoreRegs) : (s.modCore c f).power = s.power := rfl
@[simp] theorem State.modCore_security (s : State) (c : Nat) (f : CoreRegs → CoreRegs) : (s.modCore c f).security = s.security := rfl
@[simp] theorem State.modCore_hostPort (s : State) (c : Nat) (f : CoreRegs → CoreRegs) : (s.modCore c f).hostPort = s.hostPort := rfl
@[simp] theorem State.modCore_fabric (s : State) (c : Nat) (f : CoreRegs → CoreRegs) : (s.modCore c f).fabric = s.fabric := rfl

/-! ### setCluster -/

@[simp] theorem State.setCluster_agenda (s : State) (c : Nat) (r : ClusterRegs) : (s.setCluster c r).agenda = s.agenda := rfl
@[simp] theorem State.setCluster_cur (s : State) (c : Nat) (r : ClusterRegs) : (s.setCluster c r).cur = s.cur := rfl
@[simp] theorem State.setCluster_cycle (s : State) (c : Nat) (r : ClusterRegs) : (s.setCluster c r).cycle = s.cycle := rfl
@[simp] theorem State.setCluster_freeIdx (s : State) (c : Nat) (r : ClusterRegs) : (s.setCluster c r).freeIdx = s.freeIdx := rfl
@[simp] theorem State.setCluster_phys (s : State) (c : Nat) (r : ClusterRegs) : (s.setCluster c r).phys = s.phys := rfl
@[simp] theorem State.setCluster_physPoison (s : State) (c : Nat) (r : ClusterRegs) : (s.setCluster c r).physPoison = s.physPoison := rfl
@[simp] theorem State.setCluster_vmem (s : State) (c : Nat) (r : ClusterRegs) : (s.setCluster c r).vmem = s.vmem := rfl
@[simp] theorem State.setCluster_lines (s : State) (c : Nat) (r : ClusterRegs) : (s.setCluster c r).lines = s.lines := rfl
@[simp] theorem State.setCluster_tlb (s : State) (c : Nat) (r : ClusterRegs) : (s.setCluster c r).tlb = s.tlb := rfl
@[simp] theorem State.setCluster_walks (s : State) (c : Nat) (r : ClusterRegs) : (s.setCluster c r).walks = s.walks := rfl
@[simp] theorem State.setCluster_teams (s : State) (c : Nat) (r : ClusterRegs) : (s.setCluster c r).teams = s.teams := rfl
@[simp] theorem State.setCluster_gangs (s : State) (c : Nat) (r : ClusterRegs) : (s.setCluster c r).gangs = s.gangs := rfl
@[simp] theorem State.setCluster_grids (s : State) (c : Nat) (r : ClusterRegs) : (s.setCluster c r).grids = s.grids := rfl
@[simp] theorem State.setCluster_cores (s : State) (c : Nat) (r : ClusterRegs) : (s.setCluster c r).cores = s.cores := rfl
@[simp] theorem State.setCluster_dies (s : State) (c : Nat) (r : ClusterRegs) : (s.setCluster c r).dies = s.dies := rfl
@[simp] theorem State.setCluster_amos (s : State) (c : Nat) (r : ClusterRegs) : (s.setCluster c r).amos = s.amos := rfl
@[simp] theorem State.setCluster_commits (s : State) (c : Nat) (r : ClusterRegs) : (s.setCluster c r).commits = s.commits := rfl
@[simp] theorem State.setCluster_holds (s : State) (c : Nat) (r : ClusterRegs) : (s.setCluster c r).holds = s.holds := rfl
@[simp] theorem State.setCluster_reds (s : State) (c : Nat) (r : ClusterRegs) : (s.setCluster c r).reds = s.reds := rfl
@[simp] theorem State.setCluster_selfCheck (s : State) (c : Nat) (r : ClusterRegs) : (s.setCluster c r).selfCheck = s.selfCheck := rfl
@[simp] theorem State.setCluster_front (s : State) (c : Nat) (r : ClusterRegs) : (s.setCluster c r).front = s.front := rfl
@[simp] theorem State.setCluster_relia (s : State) (c : Nat) (r : ClusterRegs) : (s.setCluster c r).relia = s.relia := rfl
@[simp] theorem State.setCluster_journal (s : State) (c : Nat) (r : ClusterRegs) : (s.setCluster c r).journal = s.journal := rfl
@[simp] theorem State.setCluster_power (s : State) (c : Nat) (r : ClusterRegs) : (s.setCluster c r).power = s.power := rfl
@[simp] theorem State.setCluster_security (s : State) (c : Nat) (r : ClusterRegs) : (s.setCluster c r).security = s.security := rfl
@[simp] theorem State.setCluster_hostPort (s : State) (c : Nat) (r : ClusterRegs) : (s.setCluster c r).hostPort = s.hostPort := rfl
@[simp] theorem State.setCluster_fabric (s : State) (c : Nat) (r : ClusterRegs) : (s.setCluster c r).fabric = s.fabric := rfl

/-! ### setDie -/

@[simp] theorem State.setDie_agenda (s : State) (c : Nat) (r : DieRegs) : (s.setDie c r).agenda = s.agenda := rfl
@[simp] theorem State.setDie_cur (s : State) (c : Nat) (r : DieRegs) : (s.setDie c r).cur = s.cur := rfl
@[simp] theorem State.setDie_cycle (s : State) (c : Nat) (r : DieRegs) : (s.setDie c r).cycle = s.cycle := rfl
@[simp] theorem State.setDie_freeIdx (s : State) (c : Nat) (r : DieRegs) : (s.setDie c r).freeIdx = s.freeIdx := rfl
@[simp] theorem State.setDie_phys (s : State) (c : Nat) (r : DieRegs) : (s.setDie c r).phys = s.phys := rfl
@[simp] theorem State.setDie_physPoison (s : State) (c : Nat) (r : DieRegs) : (s.setDie c r).physPoison = s.physPoison := rfl
@[simp] theorem State.setDie_vmem (s : State) (c : Nat) (r : DieRegs) : (s.setDie c r).vmem = s.vmem := rfl
@[simp] theorem State.setDie_lines (s : State) (c : Nat) (r : DieRegs) : (s.setDie c r).lines = s.lines := rfl
@[simp] theorem State.setDie_tlb (s : State) (c : Nat) (r : DieRegs) : (s.setDie c r).tlb = s.tlb := rfl
@[simp] theorem State.setDie_walks (s : State) (c : Nat) (r : DieRegs) : (s.setDie c r).walks = s.walks := rfl
@[simp] theorem State.setDie_teams (s : State) (c : Nat) (r : DieRegs) : (s.setDie c r).teams = s.teams := rfl
@[simp] theorem State.setDie_gangs (s : State) (c : Nat) (r : DieRegs) : (s.setDie c r).gangs = s.gangs := rfl
@[simp] theorem State.setDie_grids (s : State) (c : Nat) (r : DieRegs) : (s.setDie c r).grids = s.grids := rfl
@[simp] theorem State.setDie_cores (s : State) (c : Nat) (r : DieRegs) : (s.setDie c r).cores = s.cores := rfl
@[simp] theorem State.setDie_clusters (s : State) (c : Nat) (r : DieRegs) : (s.setDie c r).clusters = s.clusters := rfl
@[simp] theorem State.setDie_amos (s : State) (c : Nat) (r : DieRegs) : (s.setDie c r).amos = s.amos := rfl
@[simp] theorem State.setDie_commits (s : State) (c : Nat) (r : DieRegs) : (s.setDie c r).commits = s.commits := rfl
@[simp] theorem State.setDie_holds (s : State) (c : Nat) (r : DieRegs) : (s.setDie c r).holds = s.holds := rfl
@[simp] theorem State.setDie_reds (s : State) (c : Nat) (r : DieRegs) : (s.setDie c r).reds = s.reds := rfl
@[simp] theorem State.setDie_selfCheck (s : State) (c : Nat) (r : DieRegs) : (s.setDie c r).selfCheck = s.selfCheck := rfl
@[simp] theorem State.setDie_front (s : State) (c : Nat) (r : DieRegs) : (s.setDie c r).front = s.front := rfl
@[simp] theorem State.setDie_relia (s : State) (c : Nat) (r : DieRegs) : (s.setDie c r).relia = s.relia := rfl
@[simp] theorem State.setDie_journal (s : State) (c : Nat) (r : DieRegs) : (s.setDie c r).journal = s.journal := rfl
@[simp] theorem State.setDie_power (s : State) (c : Nat) (r : DieRegs) : (s.setDie c r).power = s.power := rfl
@[simp] theorem State.setDie_security (s : State) (c : Nat) (r : DieRegs) : (s.setDie c r).security = s.security := rfl
@[simp] theorem State.setDie_hostPort (s : State) (c : Nat) (r : DieRegs) : (s.setDie c r).hostPort = s.hostPort := rfl
@[simp] theorem State.setDie_fabric (s : State) (c : Nat) (r : DieRegs) : (s.setDie c r).fabric = s.fabric := rfl

/-! ### setQueue -/

@[simp] theorem State.setQueue_agenda (s : State) (q : BitVec 6) (x : Queue) : (s.setQueue q x).agenda = s.agenda := rfl
@[simp] theorem State.setQueue_cur (s : State) (q : BitVec 6) (x : Queue) : (s.setQueue q x).cur = s.cur := rfl
@[simp] theorem State.setQueue_cycle (s : State) (q : BitVec 6) (x : Queue) : (s.setQueue q x).cycle = s.cycle := rfl
@[simp] theorem State.setQueue_freeIdx (s : State) (q : BitVec 6) (x : Queue) : (s.setQueue q x).freeIdx = s.freeIdx := rfl
@[simp] theorem State.setQueue_phys (s : State) (q : BitVec 6) (x : Queue) : (s.setQueue q x).phys = s.phys := rfl
@[simp] theorem State.setQueue_physPoison (s : State) (q : BitVec 6) (x : Queue) : (s.setQueue q x).physPoison = s.physPoison := rfl
@[simp] theorem State.setQueue_vmem (s : State) (q : BitVec 6) (x : Queue) : (s.setQueue q x).vmem = s.vmem := rfl
@[simp] theorem State.setQueue_lines (s : State) (q : BitVec 6) (x : Queue) : (s.setQueue q x).lines = s.lines := rfl
@[simp] theorem State.setQueue_tlb (s : State) (q : BitVec 6) (x : Queue) : (s.setQueue q x).tlb = s.tlb := rfl
@[simp] theorem State.setQueue_walks (s : State) (q : BitVec 6) (x : Queue) : (s.setQueue q x).walks = s.walks := rfl
@[simp] theorem State.setQueue_teams (s : State) (q : BitVec 6) (x : Queue) : (s.setQueue q x).teams = s.teams := rfl
@[simp] theorem State.setQueue_gangs (s : State) (q : BitVec 6) (x : Queue) : (s.setQueue q x).gangs = s.gangs := rfl
@[simp] theorem State.setQueue_grids (s : State) (q : BitVec 6) (x : Queue) : (s.setQueue q x).grids = s.grids := rfl
@[simp] theorem State.setQueue_cores (s : State) (q : BitVec 6) (x : Queue) : (s.setQueue q x).cores = s.cores := rfl
@[simp] theorem State.setQueue_clusters (s : State) (q : BitVec 6) (x : Queue) : (s.setQueue q x).clusters = s.clusters := rfl
@[simp] theorem State.setQueue_dies (s : State) (q : BitVec 6) (x : Queue) : (s.setQueue q x).dies = s.dies := rfl
@[simp] theorem State.setQueue_amos (s : State) (q : BitVec 6) (x : Queue) : (s.setQueue q x).amos = s.amos := rfl
@[simp] theorem State.setQueue_commits (s : State) (q : BitVec 6) (x : Queue) : (s.setQueue q x).commits = s.commits := rfl
@[simp] theorem State.setQueue_holds (s : State) (q : BitVec 6) (x : Queue) : (s.setQueue q x).holds = s.holds := rfl
@[simp] theorem State.setQueue_reds (s : State) (q : BitVec 6) (x : Queue) : (s.setQueue q x).reds = s.reds := rfl
@[simp] theorem State.setQueue_selfCheck (s : State) (q : BitVec 6) (x : Queue) : (s.setQueue q x).selfCheck = s.selfCheck := rfl
@[simp] theorem State.setQueue_relia (s : State) (q : BitVec 6) (x : Queue) : (s.setQueue q x).relia = s.relia := rfl
@[simp] theorem State.setQueue_journal (s : State) (q : BitVec 6) (x : Queue) : (s.setQueue q x).journal = s.journal := rfl
@[simp] theorem State.setQueue_power (s : State) (q : BitVec 6) (x : Queue) : (s.setQueue q x).power = s.power := rfl
@[simp] theorem State.setQueue_security (s : State) (q : BitVec 6) (x : Queue) : (s.setQueue q x).security = s.security := rfl
@[simp] theorem State.setQueue_hostPort (s : State) (q : BitVec 6) (x : Queue) : (s.setQueue q x).hostPort = s.hostPort := rfl
@[simp] theorem State.setQueue_fabric (s : State) (q : BitVec 6) (x : Queue) : (s.setQueue q x).fabric = s.fabric := rfl

/-! ### modRelia -/

@[simp] theorem State.modRelia_agenda (s : State) (f : Relia → Relia) : (s.modRelia f).agenda = s.agenda := rfl
@[simp] theorem State.modRelia_cur (s : State) (f : Relia → Relia) : (s.modRelia f).cur = s.cur := rfl
@[simp] theorem State.modRelia_cycle (s : State) (f : Relia → Relia) : (s.modRelia f).cycle = s.cycle := rfl
@[simp] theorem State.modRelia_freeIdx (s : State) (f : Relia → Relia) : (s.modRelia f).freeIdx = s.freeIdx := rfl
@[simp] theorem State.modRelia_phys (s : State) (f : Relia → Relia) : (s.modRelia f).phys = s.phys := rfl
@[simp] theorem State.modRelia_physPoison (s : State) (f : Relia → Relia) : (s.modRelia f).physPoison = s.physPoison := rfl
@[simp] theorem State.modRelia_vmem (s : State) (f : Relia → Relia) : (s.modRelia f).vmem = s.vmem := rfl
@[simp] theorem State.modRelia_lines (s : State) (f : Relia → Relia) : (s.modRelia f).lines = s.lines := rfl
@[simp] theorem State.modRelia_tlb (s : State) (f : Relia → Relia) : (s.modRelia f).tlb = s.tlb := rfl
@[simp] theorem State.modRelia_walks (s : State) (f : Relia → Relia) : (s.modRelia f).walks = s.walks := rfl
@[simp] theorem State.modRelia_teams (s : State) (f : Relia → Relia) : (s.modRelia f).teams = s.teams := rfl
@[simp] theorem State.modRelia_gangs (s : State) (f : Relia → Relia) : (s.modRelia f).gangs = s.gangs := rfl
@[simp] theorem State.modRelia_grids (s : State) (f : Relia → Relia) : (s.modRelia f).grids = s.grids := rfl
@[simp] theorem State.modRelia_cores (s : State) (f : Relia → Relia) : (s.modRelia f).cores = s.cores := rfl
@[simp] theorem State.modRelia_clusters (s : State) (f : Relia → Relia) : (s.modRelia f).clusters = s.clusters := rfl
@[simp] theorem State.modRelia_dies (s : State) (f : Relia → Relia) : (s.modRelia f).dies = s.dies := rfl
@[simp] theorem State.modRelia_amos (s : State) (f : Relia → Relia) : (s.modRelia f).amos = s.amos := rfl
@[simp] theorem State.modRelia_commits (s : State) (f : Relia → Relia) : (s.modRelia f).commits = s.commits := rfl
@[simp] theorem State.modRelia_holds (s : State) (f : Relia → Relia) : (s.modRelia f).holds = s.holds := rfl
@[simp] theorem State.modRelia_reds (s : State) (f : Relia → Relia) : (s.modRelia f).reds = s.reds := rfl
@[simp] theorem State.modRelia_selfCheck (s : State) (f : Relia → Relia) : (s.modRelia f).selfCheck = s.selfCheck := rfl
@[simp] theorem State.modRelia_front (s : State) (f : Relia → Relia) : (s.modRelia f).front = s.front := rfl
@[simp] theorem State.modRelia_journal (s : State) (f : Relia → Relia) : (s.modRelia f).journal = s.journal := rfl
@[simp] theorem State.modRelia_power (s : State) (f : Relia → Relia) : (s.modRelia f).power = s.power := rfl
@[simp] theorem State.modRelia_security (s : State) (f : Relia → Relia) : (s.modRelia f).security = s.security := rfl
@[simp] theorem State.modRelia_hostPort (s : State) (f : Relia → Relia) : (s.modRelia f).hostPort = s.hostPort := rfl
@[simp] theorem State.modRelia_fabric (s : State) (f : Relia → Relia) : (s.modRelia f).fabric = s.fabric := rfl

/-! ### modFabric -/

@[simp] theorem State.modFabric_agenda (s : State) (f : Fabric → Fabric) : (s.modFabric f).agenda = s.agenda := rfl
@[simp] theorem State.modFabric_cur (s : State) (f : Fabric → Fabric) : (s.modFabric f).cur = s.cur := rfl
@[simp] theorem State.modFabric_cycle (s : State) (f : Fabric → Fabric) : (s.modFabric f).cycle = s.cycle := rfl
@[simp] theorem State.modFabric_freeIdx (s : State) (f : Fabric → Fabric) : (s.modFabric f).freeIdx = s.freeIdx := rfl
@[simp] theorem State.modFabric_phys (s : State) (f : Fabric → Fabric) : (s.modFabric f).phys = s.phys := rfl
@[simp] theorem State.modFabric_physPoison (s : State) (f : Fabric → Fabric) : (s.modFabric f).physPoison = s.physPoison := rfl
@[simp] theorem State.modFabric_vmem (s : State) (f : Fabric → Fabric) : (s.modFabric f).vmem = s.vmem := rfl
@[simp] theorem State.modFabric_lines (s : State) (f : Fabric → Fabric) : (s.modFabric f).lines = s.lines := rfl
@[simp] theorem State.modFabric_tlb (s : State) (f : Fabric → Fabric) : (s.modFabric f).tlb = s.tlb := rfl
@[simp] theorem State.modFabric_walks (s : State) (f : Fabric → Fabric) : (s.modFabric f).walks = s.walks := rfl
@[simp] theorem State.modFabric_teams (s : State) (f : Fabric → Fabric) : (s.modFabric f).teams = s.teams := rfl
@[simp] theorem State.modFabric_gangs (s : State) (f : Fabric → Fabric) : (s.modFabric f).gangs = s.gangs := rfl
@[simp] theorem State.modFabric_grids (s : State) (f : Fabric → Fabric) : (s.modFabric f).grids = s.grids := rfl
@[simp] theorem State.modFabric_cores (s : State) (f : Fabric → Fabric) : (s.modFabric f).cores = s.cores := rfl
@[simp] theorem State.modFabric_clusters (s : State) (f : Fabric → Fabric) : (s.modFabric f).clusters = s.clusters := rfl
@[simp] theorem State.modFabric_dies (s : State) (f : Fabric → Fabric) : (s.modFabric f).dies = s.dies := rfl
@[simp] theorem State.modFabric_amos (s : State) (f : Fabric → Fabric) : (s.modFabric f).amos = s.amos := rfl
@[simp] theorem State.modFabric_commits (s : State) (f : Fabric → Fabric) : (s.modFabric f).commits = s.commits := rfl
@[simp] theorem State.modFabric_holds (s : State) (f : Fabric → Fabric) : (s.modFabric f).holds = s.holds := rfl
@[simp] theorem State.modFabric_reds (s : State) (f : Fabric → Fabric) : (s.modFabric f).reds = s.reds := rfl
@[simp] theorem State.modFabric_selfCheck (s : State) (f : Fabric → Fabric) : (s.modFabric f).selfCheck = s.selfCheck := rfl
@[simp] theorem State.modFabric_front (s : State) (f : Fabric → Fabric) : (s.modFabric f).front = s.front := rfl
@[simp] theorem State.modFabric_relia (s : State) (f : Fabric → Fabric) : (s.modFabric f).relia = s.relia := rfl
@[simp] theorem State.modFabric_journal (s : State) (f : Fabric → Fabric) : (s.modFabric f).journal = s.journal := rfl
@[simp] theorem State.modFabric_power (s : State) (f : Fabric → Fabric) : (s.modFabric f).power = s.power := rfl
@[simp] theorem State.modFabric_security (s : State) (f : Fabric → Fabric) : (s.modFabric f).security = s.security := rfl
@[simp] theorem State.modFabric_hostPort (s : State) (f : Fabric → Fabric) : (s.modFabric f).hostPort = s.hostPort := rfl

/-! ### What a holder reads after an update -/

theorem State.team_setTeam (s : State) (k j : Nat) (t : Team) :
    (s.setTeam k t).team j = if j = k then some t else s.team j := Tab.find_put _ _ _ _

@[simp] theorem State.team_setTeam_self (s : State) (k : Nat) (t : Team) : (s.setTeam k t).team k = some t :=
  Tab.find_put_self _ _ _

theorem State.team_setTeam_ne (s : State) {k j : Nat} (h : j ≠ k) (t : Team) : (s.setTeam k t).team j = s.team j :=
  Tab.find_put_ne _ h _

theorem State.team_modTeam (s : State) (k j : Nat) (f : Team → Team) :
    (s.modTeam k f).team j = if j = k then (s.team j).map f else s.team j := Tab.find_modify _ _ _ _

theorem State.gang_setGang (s : State) (k j : Nat) (g : Gang) :
    (s.setGang k g).gang j = if j = k then some g else s.gang j := Tab.find_put _ _ _ _

theorem State.gang_modGang (s : State) (k j : Nat) (f : Gang → Gang) :
    (s.modGang k f).gang j = if j = k then (s.gang j).map f else s.gang j := Tab.find_modify _ _ _ _

theorem State.grid_modGrid (s : State) (k j : Nat) (f : Grid → Grid) :
    (s.modGrid k f).grid j = if j = k then (s.grid j).map f else s.grid j := Tab.find_modify _ _ _ _

@[simp] theorem State.gang_setTeam (s : State) (k j : Nat) (t : Team) : (s.setTeam k t).gang j = s.gang j := rfl
@[simp] theorem State.grid_setTeam (s : State) (k j : Nat) (t : Team) : (s.setTeam k t).grid j = s.grid j := rfl
@[simp] theorem State.core_setTeam (s : State) (k j : Nat) (t : Team) : (s.setTeam k t).core j = s.core j := rfl
@[simp] theorem State.team_setGang (s : State) (k j : Nat) (g : Gang) : (s.setGang k g).team j = s.team j := rfl
@[simp] theorem State.team_modGang (s : State) (k j : Nat) (f : Gang → Gang) : (s.modGang k f).team j = s.team j := rfl
@[simp] theorem State.team_modGrid (s : State) (k j : Nat) (f : Grid → Grid) : (s.modGrid k f).team j = s.team j := rfl
@[simp] theorem State.team_modCore (s : State) (c j : Nat) (f : CoreRegs → CoreRegs) : (s.modCore c f).team j = s.team j := rfl

end

end Sys2Proof.Machine
end

