-- ==== Sys2Proof/Laws/Ops.lean ====
section
/-! SUPPORT. What the shared operations do: issue, retirement, DET events, traps, the pass of time, the extents of commands. -/

namespace Sys2Proof.Machine

/-! ### Result -/

@[simp] theorem commit_eq (s : State) (k : Nat) (t : Team) : s.commit k t = .next (s.setTeam k t) := rfl

/-! ### DET events -/

/-- A DET event changes the cause register and the log alone (R374). -/
theorem detEvent_eq (t : Team) (c : Nat) (pc : Addr) :
    t.detEvent c pc =
      { t with detcause := (t.detEvent c pc).detcause, detlog := (t.detEvent c pc).detlog } := by
  unfold Team.detEvent
  split
  · rfl
  · dsimp only
    split
    · rfl
    · split <;> rfl

theorem detIf_eq (t : Team) (b : Bool) (c : Nat) :
    t.detIf b c = { t with detcause := (t.detIf b c).detcause, detlog := (t.detIf b c).detlog } := by
  unfold Team.detIf
  split
  · exact detEvent_eq t c t.pc
  · rfl

theorem reading_eq (t : Team) (uses : List Nat) :
    t.reading uses = { t with detcause := (t.reading uses).detcause, detlog := (t.reading uses).detlog } :=
  detIf_eq t _ 2

/-- Outside DET nothing is recorded. -/
theorem detIf_plain (t : Team) (b : Bool) (c : Nat) (h : t.launch.det = false) : t.detIf b c = t := by
  unfold Team.detIf Team.detEvent
  simp [h]

theorem reading_plain (t : Team) (uses : List Nat) (h : t.launch.det = false) : t.reading uses = t :=
  detIf_plain t _ 2 h

/-! ### Issue -/

/-- A team that may issue is running. -/
theorem mayIssue_running {t : Team} (h : t.mayIssue = true) : t.stat = .running := by
  simp only [Team.mayIssue, Bool.and_eq_true, beq_iff_eq] at h
  exact h.1.1.1.1

/-- A team that can issue gets the effect of its instruction. -/
theorem issue_eq {s : State} {k : Nat} {t : Team} {uses : Team → List Nat} (f : Nat → Team → Result)
    (h : s.CanIssue k t (uses t)) : issue s uses f = f k t := by
  obtain ⟨hc, ht, hm, hr, hb, ha⟩ := h
  simp only [issue, hc, ht, mayIssue_running hm, hm, hr, ha]
  rw [hb]; rfl

/-- A DET record changes no self-check. -/
theorem checkFires_reading (s : State) (t : Team) (uses : List Nat) (w : Nat) :
    s.checkFires (t.reading uses) w = s.checkFires t w := by
  rw [reading_eq]; rfl

/-- An instruction of one pass whose checks `chk` pass and whose pass is not skipped gets its effect. -/
theorem issuePass_eq {s : State} {k : Nat} {t : Team} {uses : Team → List Nat} {chk : Team → Option TrapRec}
    {skipped : Team → Bool} {unit : SelfCheck → Nat} (f : Nat → Team → Result) (h : s.CanIssueScalar k t (uses t))
    (hc : chk t = none) (hs : skipped t = false) :
    issuePass s uses chk skipped f unit = f k (t.reading (uses t)) := by
  rw [issuePass, issue_eq _ h.1]
  have hp : ¬ t.words ≤ t.pass := by have := h.2.1; omega
  simp [hc, hs, hp, h.2.2]

theorem issueChecked_eq {s : State} {k : Nat} {t : Team} {uses : Team → List Nat} {chk : Team → Option TrapRec}
    {unit : SelfCheck → Nat} (f : Nat → Team → Result) (h : s.CanIssueScalar k t (uses t)) (hc : chk t = none) :
    issueChecked s uses chk f unit = f k (t.reading (uses t)) :=
  issuePass_eq f h hc rfl

theorem issueScalar_eq {s : State} {k : Nat} {t : Team} {uses : Team → List Nat} (f : Nat → Team → Result)
    (h : s.CanIssueScalar k t (uses t)) : issueScalar s uses f = f k (t.reading (uses t)) :=
  issueChecked_eq f h rfl

/-- A check that fails is the trap that the instruction takes, before its pass (R64). -/
theorem issueChecked_trap {s : State} {k : Nat} {t : Team} {uses : Team → List Nat} {chk : Team → Option TrapRec}
    {unit : SelfCheck → Nat} {r : TrapRec} (f : Nat → Team → Result) (h : s.CanIssue k t (uses t))
    (hc : chk t = some r) : issueChecked s uses chk f unit = .next (s.raise k r) := by
  simp only [issueChecked, issuePass, issue_eq _ h, hc]

/-! ### Registers -/

theorem setS_sreg (t : Team) (n m : Nat) (v : W64) :
    (t.setS n v).sreg m = if n = m ∧ m < 64 then v else t.sreg m := by
  unfold Team.setS Team.sreg
  by_cases hn : n < 64
  · by_cases h : n = m
    · subst h; simp [Vector.getD, hn]
    · simp only [h, false_and, if_false]
      by_cases hm : m < 64
      · simp [Vector.getD, hm, h]
      · simp [Vector.getD, hm]
  · have : ¬ (n = m ∧ m < 64) := by omega
    rw [if_neg this, Vector.setIfInBounds_eq_of_size_le (by omega)]

theorem setS_sreg_same (t : Team) {n : Nat} (v : W64) (h : n < 64) : (t.setS n v).sreg n = v := by
  simp [setS_sreg, h]

theorem setS_sreg_ne (t : Team) {n m : Nat} (v : W64) (h : n ≠ m) : (t.setS n v).sreg m = t.sreg m := by
  simp [setS_sreg, h]

theorem reading_src (t : Team) (uses : List Nat) (f : BitVec 7) : (t.reading uses).src f = t.src f := by
  rw [reading_eq]; rfl

theorem reading_sreg (t : Team) (uses : List Nat) (n : Nat) : (t.reading uses).sreg n = t.sreg n := by
  rw [reading_eq]; rfl

/-! ### Retirement -/

/-- What retirement changes. -/
theorem retireTo_eq (t : Team) (pc : Addr) :
    t.retireTo pc =
      { t with
        pc := pc, pass := 0, waitOnly := false, rowWait := none, retired := t.retiredNext
        inside := false, park := (t.retireTo pc).park, prog := {}, pipe := t.pipe.retire t.pc pc
        yielded := if t.pipe.behind then none else t.yielded } := by
  unfold Team.retireTo Team.countRetired Team.retiredNext
  cases h : t.sys <;> simp

theorem retireTo_Retired (t : Team) (pc : Addr) : t.Retired (t.retireTo pc) [] pc := by
  rw [retireTo_eq]
  exact ⟨⟨rfl, fun _ _ => rfl⟩, rfl, rfl, rfl⟩

/-- One register written and the instruction retired. -/
theorem setS_retireTo (t : Team) (d : Nat) (v : W64) (pc : Addr) :
    t.Retired ((t.setS d v).retireTo pc) [d] pc := by
  have h := retireTo_eq (t.setS d v) pc
  rw [h]
  refine ⟨⟨rfl, fun n hn => ?_⟩, rfl, rfl, rfl⟩
  exact setS_sreg_ne t v (by simpa [eq_comm] using hn)

theorem retireTo_sreg (t : Team) (pc : Addr) (n : Nat) : (t.retireTo pc).sreg n = t.sreg n := by
  rw [retireTo_eq]; rfl

/-! ### The team's update -/

/-- Setting a team changes nothing else. -/
theorem keepsRest_setTeam (s : State) (k : Nat) (u : Team) : s.KeepsRest (s.setTeam k u) k := by
  refine ⟨fun l => ?_, fun _ => rfl, fun j hj => ?_, rfl, rfl, rfl, rfl, rfl⟩
  · cases l <;> rfl
  · exact State.team_setTeam_ne s hj u

/-! ### The extents of a matrix command (R281) -/

/-- R281: a stride changes the check of an extent only by its alignment. -/
theorem extentStat_stride_zero {s : State} {k n : Nat} {t : Team} {x : Extent}
    (h : s.extentStat k t { x with stride := n } = .ok) : s.extentStat k t { x with stride := 0 } = .ok := by
  by_cases ha : x.addr % x.align = 0 <;> by_cases hn : n % x.align = 0 <;> simp [State.extentStat, ha, hn] at h ⊢
  exact h

theorem extentsStat_of_forall {s : State} {k : Nat} {t : Team} {l : List Extent}
    (h : ∀ x ∈ l, s.extentStat k t x = .ok) : s.extentsStat k t l = .ok := by
  induction l with
  | nil => rfl
  | cons x rest ih => simp [State.extentsStat, h x (by simp), ih fun y hy => h y (by simp [hy])]

/-- R281: an array each of whose extents passes with the array's stride passes. -/
theorem extentsStat_strided {s : State} {k n : Nat} {t : Team} {l : List Extent} (h0 : ∀ x ∈ l, x.stride = 0)
    (h : ∀ x ∈ l, s.extentStat k t { x with stride := n } = .ok) : s.extentsStat k t (strided n l) = .ok := by
  have key : ∀ x ∈ l, s.extentStat k t x = .ok := fun x hx => by
    have := extentStat_stride_zero (h x hx)
    rwa [← h0 x hx] at this
  cases l with
  | nil => rfl
  | cons x rest =>
    rw [strided]
    split
    · exact extentsStat_of_forall key
    · refine extentsStat_of_forall fun y hy => ?_
      rcases List.mem_cons.1 hy with rfl | hy
      · exact h x (by simp)
      · exact key y (by simp [hy])
end Sys2Proof.Machine
end

