-- ==== Sys2Proof/Laws/Lanes.lean ====
section
/-! SUPPORT. What the passes of a per-lane instruction do: rows after a write or a release, the run of clear passes, and
the lane instruction element by element. -/

namespace Sys2Proof.Machine

/-! ### Rows -/

/-- `u` differs from `t` in its rows, their error marks, its hold of the save reserve, what its transaction records of
rows and what the instruction carries from pass to pass alone. -/
def Team.RowsOnly (t u : Team) : Prop :=
  u = { t with
    rows := u.rows, rowErr := u.rowErr
    tx := { t.tx with touched := u.tx.touched, deferred := u.tx.deferred, deferredErr := u.tx.deferredErr }
    yielded := u.yielded, reserve := u.reserve, prog := u.prog, pipe := u.pipe }

theorem rowsOnly_refl (t : Team) : t.RowsOnly t := rfl

theorem rowsOnly_trans {t u v : Team} (h : t.RowsOnly u) (h' : u.RowsOnly v) : t.RowsOnly v := by
  unfold Team.RowsOnly at *
  rw [h'] at *
  rw [h]

theorem rowsOnly_touch (t : Team) (key : Nat) (eff : W32) : t.RowsOnly (t.touch key eff) := by
  unfold Team.RowsOnly Team.touch
  split <;> rfl

theorem touch_rows (t : Team) (key : Nat) (eff : W32) : (t.touch key eff).rows = t.rows := by
  unfold Team.touch
  split <;> rfl

theorem rowsOnly_putRow (t : Team) (r w : Nat) (eff : W32) (v : Nat → W32) : t.RowsOnly (t.putRow r w eff v) := by
  unfold Team.putRow
  exact rowsOnly_trans (u := { t with rows := _, rowErr := _ }) rfl (rowsOnly_touch _ _ _)

theorem rowsOnly_dropRow (t : Team) (eff : W32) (w r : Nat) : t.RowsOnly (t.dropRow eff w r) := by
  unfold Team.dropRow
  split
  · rfl
  · refine rowsOnly_trans (u := { t with rows := _, rowErr := _, tx := _ }) ?_ (rowsOnly_touch _ _ _)
    unfold Team.RowsOnly
    dsimp only
    split <;> rfl

theorem rowsOnly_takeReserve (s : State) (t : Team) (n : Nat) : t.RowsOnly (s.takeReserve t n) := by
  unfold State.takeReserve
  split <;> rfl

theorem rowsOnly_notePass (b t : Team) (regs : List Nat) (w : Nat) (eff : W32) :
    t.RowsOnly (Team.notePass b t regs w eff) := rfl

/-- Rows stand when reserve rows are taken and when a pass is noted. -/
theorem row_takeReserve (s : State) (t : Team) (n r w : Nat) : (s.takeReserve t n).row r w = t.row r w := by
  unfold State.takeReserve
  split <;> rfl

theorem row_notePass (b t : Team) (regs : List Nat) (w r w' : Nat) (eff : W32) :
    (Team.notePass b t regs w eff).row r w' = t.row r w' := rfl

/-- Rows have distinct keys. -/
theorem rowKey_inj {r w r' w' : Nat} (h : w < 32) (h' : w' < 32) : rowKey r w = rowKey r' w' ↔ r = r' ∧ w = w' := by
  unfold rowKey
  constructor
  · intro e; omega
  · rintro ⟨rfl, rfl⟩; rfl

/-- The row that a write leaves. -/
def Team.newRow (t : Team) (r w : Nat) (eff : W32) (v : Nat → W32) : Row :=
  Vector.ofFn fun i : Fin 32 => if eff.getLsbD i then v i else ((t.row r w).getD (Vector.replicate 32 0)).getD i 0

theorem row_putRow (t : Team) {r w r' w' : Nat} (h : w < 32) (h' : w' < 32) (eff : W32) (v : Nat → W32) :
    (t.putRow r w eff v).row r' w' = if r' = r ∧ w' = w then some (t.newRow r w eff v) else t.row r' w' := by
  unfold Team.putRow Team.row
  rw [touch_rows, Tab.find_put]
  simp only [rowKey_inj h' h]
  rfl

theorem row_dropRow (t : Team) {r w r' w' : Nat} (h : w < 32) (h' : w' < 32) (eff : W32) :
    (t.dropRow eff w r).row r' w' = if r' = r ∧ w' = w then none else t.row r' w' := by
  unfold Team.dropRow
  cases hr : t.row r w with
  | none =>
    by_cases e : r' = r ∧ w' = w
    · obtain ⟨rfl, rfl⟩ := e; simp [hr]
    · simp [e]
  | some v =>
    unfold Team.row
    rw [touch_rows, Tab.find_erase]
    simp only [rowKey_inj h' h]

theorem rowsOnly_drops (l : List Nat) (t : Team) (eff : W32) (w : Nat) :
    t.RowsOnly (l.foldl (fun t r => t.dropRow eff w r) t) := by
  induction l generalizing t with
  | nil => rfl
  | cons r l ih => exact rowsOnly_trans (rowsOnly_dropRow t eff w r) (ih _)

theorem row_drops (l : List Nat) (t : Team) {w r' w' : Nat} (h : w < 32) (h' : w' < 32) (eff : W32) :
    (l.foldl (fun t r => t.dropRow eff w r) t).row r' w' = if r' ∈ l ∧ w' = w then none else t.row r' w' := by
  induction l generalizing t with
  | nil => simp
  | cons r l ih =>
    simp only [List.foldl_cons, ih, row_dropRow t h h', List.mem_cons]
    by_cases e : w' = w <;> by_cases e1 : r' ∈ l <;> by_cases e2 : r' = r <;> simp [e, e1, e2]

/-- One word of a row. -/
def Team.cell (t : Team) (r w b : Nat) : W32 := ((t.row r w).getD (Vector.replicate 32 0)).getD b 0

theorem elem_eq (t : Team) (wide : Bool) (r w b : Nat) :
    t.elem wide r w b = if wide then (t.cell r w b).toNat + 2 ^ 32 * (t.cell (r + 1) w b).toNat else (t.cell r w b).toNat :=
  rfl

theorem cell_congr {t u : Team} {r w : Nat} (h : u.row r w = t.row r w) (b : Nat) : u.cell r w b = t.cell r w b := by
  unfold Team.cell; rw [h]

theorem cell_newRow (t : Team) (r w b : Nat) (hb : b < 32) (eff : W32) (v : Nat → W32) :
    (t.newRow r w eff v).getD b 0 = if eff.getLsbD b then v b else t.cell r w b := by
  simp [Team.newRow, Team.cell, Vector.getD, hb]

theorem cell_putRow (t : Team) {r w r' w' b : Nat} (h : w < 32) (h' : w' < 32) (hb : b < 32) (eff : W32) (v : Nat → W32) :
    (t.putRow r w eff v).cell r' w' b =
      if r' = r ∧ w' = w ∧ eff.getLsbD b = true then v b else t.cell r' w' b := by
  unfold Team.cell
  rw [row_putRow t h h']
  by_cases e : r' = r ∧ w' = w
  · obtain ⟨rfl, rfl⟩ := e
    simp only [and_self, true_and, if_true, Option.getD_some, cell_newRow t _ _ _ hb]
    rfl
  · rw [if_neg e, if_neg (fun h => e ⟨h.1, h.2.1⟩)]

/-! ### Elements written -/

theorem rowsOnly_putElems (t : Team) (wide : Bool) (r w : Nat) (eff : W32) (v : Nat → Nat) :
    t.RowsOnly (t.putElems wide r w eff v) := by
  unfold Team.putElems
  cases wide
  · simp only [Bool.false_eq_true, if_false]
    exact rowsOnly_putRow _ _ _ _ _
  · simp only [if_true]
    exact rowsOnly_trans (rowsOnly_putRow _ _ _ _ _) (rowsOnly_putRow _ _ _ _ _)

theorem row_putElems_ne (t : Team) (wide : Bool) {r w r' w' : Nat} (h : w < 32) (h' : w' < 32) (eff : W32)
    (v : Nat → Nat) (hn : ¬ (r' ∈ pairOf wide r ∧ w' = w)) : (t.putElems wide r w eff v).row r' w' = t.row r' w' := by
  unfold Team.putElems
  cases wide
  · simp only [Bool.false_eq_true, if_false, row_putRow t h h']
    rw [if_neg]; rintro ⟨rfl, rfl⟩; exact hn ⟨by simp [pairOf], rfl⟩
  · simp only [if_true, row_putRow _ h h']
    rw [if_neg, if_neg]
    · rintro ⟨rfl, rfl⟩; exact hn ⟨by simp [pairOf], rfl⟩
    · rintro ⟨rfl, rfl⟩; exact hn ⟨by simp [pairOf], rfl⟩

theorem pow64_split : (2 : Nat) ^ 64 = 2 ^ 32 * 2 ^ 32 := by decide

theorem elem_putElems (t : Team) (wide : Bool) {r w b : Nat} (h : w < 32) (hb : b < 32) (eff : W32) (v : Nat → Nat) :
    (t.putElems wide r w eff v).elem wide r w b =
      if eff.getLsbD b = true then v b % 2 ^ (if wide then 64 else 32) else t.elem wide r w b := by
  unfold Team.putElems
  cases wide
  · simp only [elem_eq, Bool.false_eq_true, if_false, cell_putRow t h h hb, true_and]
    split
    · exact BitVec.toNat_ofNat _ _
    · rfl
  · simp only [elem_eq, if_true, cell_putRow _ h h hb]
    have e : r + 1 ≠ r := by omega
    have e' : ¬ r = r + 1 := by omega
    simp only [e, e', false_and, if_false, true_and]
    split
    · rw [BitVec.toNat_ofNat, BitVec.toNat_ofNat, pow64_split, Nat.mod_mul]
    · rfl

/-! ### The run of clear passes -/

/-- The team after the passes of `words`. -/
def Lanes.passes (p : Lanes) (s : State) : List (Nat × W32) → Team → Team
  | [], t => t
  | (w, eff) :: rest, t => p.passes s rest (p.pass (s.takeReserve t (t.newRows p.dst w)) w eff).1

/-- What the passes of `words` raise. -/
def Lanes.raises (p : Lanes) (s : State) : List (Nat × W32) → Team → List Raised
  | [], _ => []
  | (w, eff) :: rest, t =>
    let one := p.pass (s.takeReserve t (t.newRows p.dst w)) w eff
    one.2 ++ p.raises s rest one.1

theorem run_clear (p : Lanes) (s : State) (words : List (Nat × W32)) (t : Team) (ev : List Raised)
    (h : p.Clear s words t) : p.run s words t ev = (p.finish (p.passes s words t), ev ++ p.raises s words t, .done) := by
  induction words generalizing t ev with
  | nil => simp [Lanes.run, Lanes.passes, Lanes.raises]
  | cons e rest ih =>
    obtain ⟨w, eff⟩ := e
    obtain ⟨h1, h2, h3⟩ := h
    simp only [Lanes.run, h1, h2, if_true]
    rw [ih _ _ h3]
    simp [Lanes.passes, Lanes.raises]

theorem raisedAll_append (a b : List Raised) : raisedAll (a ++ b) = raisedAll a ||| raisedAll b := by
  induction a with
  | nil => simp [raisedAll]
  | cons x a ih => simp [raisedAll, ih, BitVec.or_assoc]

theorem getLsbD_raisedAll (l : List Raised) (j : Nat) : (raisedAll l).getLsbD j = l.any fun r => r.fl.getLsbD j := by
  induction l with
  | nil => simp [raisedAll]
  | cons x l ih => simp [raisedAll, ih]

/-! ### Lane by lane -/

/-- What the passes of `words` of a lane instruction leave of a team. -/
theorem laneOp_passes (s : State) (sw dw : Bool) (a b d : Option Nat) (dst : Nat) (gone : List Nat)
    (fn : Nat → Nat → Nat → Nat → Nat × Flags) (words : List (Nat × W32)) (t : Team)
    (hw : ∀ e ∈ words, e.1 < 32) (hd : words.Pairwise fun e f => e.1 ≠ f.1) :
    let p := laneOp sw dw a b d dst gone fn
    let u := p.passes s words t
    let res (w x : Nat) : Nat × Flags := fn (32 * w + x) (t.source sw a w x) (t.source sw b w x) (t.source sw d w x)
    (∀ e ∈ words, ∀ x, x < 32 → u.elem dw dst e.1 x =
      if e.2.getLsbD x = true then (res e.1 x).1 % 2 ^ (if dw then 64 else 32) else t.elem dw dst e.1 x) ∧
    (∀ w x, w < 32 → w ∉ words.map (·.1) → u.elem dw dst w x = t.elem dw dst w x) ∧
    (∀ r w, w < 32 → r ∉ pairOf dw dst →
      u.row r w = if r ∈ gone ∧ w ∈ words.map (·.1) then none else t.row r w) ∧
    (∀ j, (raisedAll (p.raises s words t)).getLsbD j =
      words.any fun e => (activeBits e.2).any fun x => (res e.1 x).2.getLsbD j) ∧
    t.RowsOnly u := by
  induction words generalizing t with
  | nil => simp [Lanes.passes, Lanes.raises, raisedAll, Team.RowsOnly]
  | cons e rest ih =>
    obtain ⟨w, eff⟩ := e
    have hw0 : w < 32 := hw _ (List.mem_cons_self ..)
    have hwr : ∀ e ∈ rest, e.1 < 32 := fun e he => hw e (List.mem_cons_of_mem _ he)
    obtain ⟨hne, hdr⟩ := List.pairwise_cons.1 hd
    have hnot : w ∉ rest.map (·.1) := by
      intro h; obtain ⟨f, hf, rfl⟩ := List.mem_map.1 h; exact hne f hf rfl
    intro p u res
    have hp : p = laneOp sw dw a b d dst gone fn := rfl
    obtain ⟨t0, ht0⟩ : ∃ t0, t0 = s.takeReserve t (t.newRows p.dst w) := ⟨_, rfl⟩
    obtain ⟨t1, ht1⟩ : ∃ t1, t1 = (p.pass t0 w eff).1 := ⟨_, rfl⟩
    have h0 : ∀ r w', t0.row r w' = t.row r w' := fun r w' => by rw [ht0]; exact row_takeReserve ..
    have h0s : ∀ o w' x, t0.source sw o w' x = t.source sw o w' x := by
      intro o w' x
      cases o with
      | none => rfl
      | some r => simp only [Team.source, elem_eq, cell_congr (h0 r w'), cell_congr (h0 (r + 1) w')]
    have hrow : ∀ r w', w' < 32 → ¬ (r ∈ pairOf dw dst ∧ w' = w) →
        t1.row r w' = if (r ∈ gone ∧ r ∉ pairOf dw dst) ∧ w' = w then none else t.row r w' := by
      intro r w' h' hn
      simp only [ht1, hp, Lanes.pass, laneOp, row_notePass]
      rw [row_drops _ _ hw0 h', row_putElems_ne _ _ hw0 h' _ _ hn, h0]
      simp
    have hold : ∀ r w', w' < 32 → w' ≠ w → t1.row r w' = t.row r w' := by
      intro r w' h' hn
      rw [hrow r w' h' (fun h => hn h.2), if_neg (fun h => hn h.2)]
    have helem : ∀ wide r w' x, w' < 32 → w' ≠ w → t1.elem wide r w' x = t.elem wide r w' x := by
      intro wide r w' x h' hn
      simp only [elem_eq, cell_congr (hold r w' h' hn), cell_congr (hold (r + 1) w' h' hn)]
    have hsrc : ∀ o w' x, w' < 32 → w' ≠ w → t1.source sw o w' x = t.source sw o w' x := by
      intro o w' x h' hn
      cases o with
      | none => rfl
      | some r => exact helem sw r w' x h' hn
    have hdst : ∀ x, x < 32 → t1.elem dw dst w x =
        if eff.getLsbD x = true then
          (fn (32 * w + x) (t.source sw a w x) (t.source sw b w x) (t.source sw d w x)).1 % 2 ^ (if dw then 64 else 32)
        else t.elem dw dst w x := by
      intro x hx
      have he : t.elem dw dst w x = t0.elem dw dst w x := by
        simp only [elem_eq, cell_congr (h0 dst w), cell_congr (h0 (dst + 1) w)]
      rw [he, ← h0s a, ← h0s b, ← h0s d, ← elem_putElems t0 dw hw0 hx eff fun x =>
        (fn (32 * w + x) (t0.source sw a w x) (t0.source sw b w x) (t0.source sw d w x)).1]
      have hk : ∀ r, r ∈ pairOf dw dst → t1.row r w = (t0.putElems dw dst w eff fun x =>
          (fn (32 * w + x) (t0.source sw a w x) (t0.source sw b w x) (t0.source sw d w x)).1).row r w := by
        intro r hr
        simp only [ht1, hp, Lanes.pass, laneOp, row_notePass]
        rw [row_drops _ _ hw0 hw0, if_neg]
        simp [hr]
      cases dw
      · simp only [elem_eq, Bool.false_eq_true, if_false, cell_congr (hk dst (by simp [pairOf]))]
      · simp only [elem_eq, cell_congr (hk dst (by simp [pairOf])), cell_congr (hk (dst + 1) (by simp [pairOf]))]
    have honly : t.RowsOnly t1 := by
      refine rowsOnly_trans (u := t0) (by rw [ht0]; exact rowsOnly_takeReserve ..) ?_
      simp only [ht1, hp, Lanes.pass, laneOp]
      exact rowsOnly_trans (rowsOnly_trans (rowsOnly_putElems _ _ _ _ _ _) (rowsOnly_drops _ _ _ _))
        (rowsOnly_notePass ..)
    have hev : ∀ j, (raisedAll (p.pass t0 w eff).2).getLsbD j = (activeBits eff).any fun x =>
        (fn (32 * w + x) (t.source sw a w x) (t.source sw b w x) (t.source sw d w x)).2.getLsbD j := by
      intro j
      rw [getLsbD_raisedAll]
      simp only [hp, Lanes.pass, laneOp, List.any_map, List.any_filter, h0s]
      congr 1
      funext x
      simp only [Function.comp]
      by_cases h0 : (fn (32 * w + x) (t.source sw a w x) (t.source sw b w x) (t.source sw d w x)).2 = 0
      · simp [h0]
      · rw [bne_iff_ne.2 h0, Bool.true_and]
    obtain ⟨i1, i2, i3, i4, i5⟩ := ih t1 hwr hdr
    have hu : u = p.passes s rest t1 := by rw [ht1, ht0]; rfl
    refine ⟨?_, ?_, ?_, ?_, ?_⟩
    · intro f hf x hx
      rw [hu]
      rcases List.mem_cons.1 hf with rfl | hf
      · rw [i2 w x hw0 hnot, hdst x hx]
      · have hfw := hwr f hf
        have hfn : f.1 ≠ w := fun h => hne f hf h.symm
        rw [i1 f hf x hx]
        simp only [hsrc _ f.1 x hfw hfn, helem dw dst f.1 x hfw hfn, res]
    · intro w' x h' hn
      simp only [List.map_cons, List.mem_cons, not_or] at hn
      rw [hu, i2 w' x h' hn.2, helem dw dst w' x h' hn.1]
    · intro r w' h' hr
      rw [hu, i3 r w' h' hr]
      simp only [List.map_cons, List.mem_cons]
      rw [hrow r w' h' (fun h => hr h.1)]
      by_cases e1 : r ∈ gone <;> by_cases e2 : w' = w <;> by_cases e3 : w' ∈ List.map (·.1) rest <;>
        simp [e1, e2, e3, hr]
    · intro j
      have : p.raises s ((w, eff) :: rest) t = (p.pass t0 w eff).2 ++ p.raises s rest t1 := by rw [ht1, ht0]; rfl
      rw [this, raisedAll_append, BitVec.getLsbD_or, hev, i4, List.any_cons]
      congr 1
      refine Bool.eq_iff_iff.2 ?_
      simp only [List.any_eq_true (l := rest)]
      constructor
      · rintro ⟨f, hf, h⟩
        exact ⟨f, hf, by simpa only [hsrc _ f.1 _ (hwr f hf) (fun h => hne f hf h.symm)] using h⟩
      · rintro ⟨f, hf, h⟩
        exact ⟨f, hf, by simpa only [hsrc _ f.1 _ (hwr f hf) (fun h => hne f hf h.symm)] using h⟩
    · rw [hu]; exact rowsOnly_trans honly i5

end Sys2Proof.Machine
end

