-- ==== Sys2Proof/Laws/PerInstr.lean ====
section
/-! SUPPORT. The coding of each instruction: the word that the encoder writes is one that the decoder's tables name
by the same instruction. -/

namespace Sys2Proof.Laws.Coding

section

set_option Elab.async false

/-- The word of an instruction, if it has one, names the instruction (R60, R61), its MAJ is not the reserved one, and its
SV is the instruction's. -/
def Statement (i : Instr) : Prop :=
  ∀ w, encode i = some w → candidate w = some i ∧ majOf w ≠ 0x3F#6 ∧ i.svOk = (fieldOf w 30 2 != 3#2)

theorem sadd (f : S3) : Statement (.sadd f) := by
  intro w h
  obtain ⟨h1, h2, h3, h4⟩ := S3.coding f 0x01#6 0#3 w (Option.some.inj h).symm
  refine ⟨?_, by rw [h2]; decide, by rw [h3]; rfl⟩
  unfold candidate
  rw [h2]
  show candidate01 w = _
  unfold candidate01
  rw [h4]
  exact congrArg (fun x => some (Instr.sadd x)) h1

theorem ssub (f : S3) : Statement (.ssub f) := by
  intro w h
  obtain ⟨h1, h2, h3, h4⟩ := S3.coding f 0x01#6 1#3 w (Option.some.inj h).symm
  refine ⟨?_, by rw [h2]; decide, by rw [h3]; rfl⟩
  unfold candidate
  rw [h2]
  show candidate01 w = _
  unfold candidate01
  rw [h4]
  exact congrArg (fun x => some (Instr.ssub x)) h1

theorem smul (f : S3) : Statement (.smul f) := by
  intro w h
  obtain ⟨h1, h2, h3, h4⟩ := S3.coding f 0x01#6 2#3 w (Option.some.inj h).symm
  refine ⟨?_, by rw [h2]; decide, by rw [h3]; rfl⟩
  unfold candidate
  rw [h2]
  show candidate01 w = _
  unfold candidate01
  rw [h4]
  exact congrArg (fun x => some (Instr.smul x)) h1

theorem smulh (f : S3) : Statement (.smulh f) := by
  intro w h
  obtain ⟨h1, h2, h3, h4⟩ := S3.coding f 0x01#6 3#3 w (Option.some.inj h).symm
  refine ⟨?_, by rw [h2]; decide, by rw [h3]; rfl⟩
  unfold candidate
  rw [h2]
  show candidate01 w = _
  unfold candidate01
  rw [h4]
  exact congrArg (fun x => some (Instr.smulh x)) h1

theorem sand (f : S3) : Statement (.sand f) := by
  intro w h
  obtain ⟨h1, h2, h3, h4⟩ := S3.coding f 0x01#6 4#3 w (Option.some.inj h).symm
  refine ⟨?_, by rw [h2]; decide, by rw [h3]; rfl⟩
  unfold candidate
  rw [h2]
  show candidate01 w = _
  unfold candidate01
  rw [h4]
  exact congrArg (fun x => some (Instr.sand x)) h1

theorem sor (f : S3) : Statement (.sor f) := by
  intro w h
  obtain ⟨h1, h2, h3, h4⟩ := S3.coding f 0x01#6 5#3 w (Option.some.inj h).symm
  refine ⟨?_, by rw [h2]; decide, by rw [h3]; rfl⟩
  unfold candidate
  rw [h2]
  show candidate01 w = _
  unfold candidate01
  rw [h4]
  exact congrArg (fun x => some (Instr.sor x)) h1

theorem sxor (f : S3) : Statement (.sxor f) := by
  intro w h
  obtain ⟨h1, h2, h3, h4⟩ := S3.coding f 0x01#6 6#3 w (Option.some.inj h).symm
  refine ⟨?_, by rw [h2]; decide, by rw [h3]; rfl⟩
  unfold candidate
  rw [h2]
  show candidate01 w = _
  unfold candidate01
  rw [h4]
  exact congrArg (fun x => some (Instr.sxor x)) h1

theorem sandn (f : S3) : Statement (.sandn f) := by
  intro w h
  obtain ⟨h1, h2, h3, h4⟩ := S3.coding f 0x01#6 7#3 w (Option.some.inj h).symm
  refine ⟨?_, by rw [h2]; decide, by rw [h3]; rfl⟩
  unfold candidate
  rw [h2]
  show candidate01 w = _
  unfold candidate01
  rw [h4]
  exact congrArg (fun x => some (Instr.sandn x)) h1

theorem sshl (f : S3) : Statement (.sshl f) := by
  intro w h
  obtain ⟨h1, h2, h3, h4⟩ := S3.coding f 0x02#6 0#3 w (Option.some.inj h).symm
  refine ⟨?_, by rw [h2]; decide, by rw [h3]; rfl⟩
  unfold candidate
  rw [h2]
  show candidate02 w = _
  unfold candidate02
  rw [h4]
  exact congrArg (fun x => some (Instr.sshl x)) h1

theorem sshr (f : S3) : Statement (.sshr f) := by
  intro w h
  obtain ⟨h1, h2, h3, h4⟩ := S3.coding f 0x02#6 1#3 w (Option.some.inj h).symm
  refine ⟨?_, by rw [h2]; decide, by rw [h3]; rfl⟩
  unfold candidate
  rw [h2]
  show candidate02 w = _
  unfold candidate02
  rw [h4]
  exact congrArg (fun x => some (Instr.sshr x)) h1

theorem ssar (f : S3) : Statement (.ssar f) := by
  intro w h
  obtain ⟨h1, h2, h3, h4⟩ := S3.coding f 0x02#6 2#3 w (Option.some.inj h).symm
  refine ⟨?_, by rw [h2]; decide, by rw [h3]; rfl⟩
  unfold candidate
  rw [h2]
  show candidate02 w = _
  unfold candidate02
  rw [h4]
  exact congrArg (fun x => some (Instr.ssar x)) h1

theorem srot (f : S3) : Statement (.srot f) := by
  intro w h
  obtain ⟨h1, h2, h3, h4⟩ := S3.coding f 0x02#6 3#3 w (Option.some.inj h).symm
  refine ⟨?_, by rw [h2]; decide, by rw [h3]; rfl⟩
  unfold candidate
  rw [h2]
  show candidate02 w = _
  unfold candidate02
  rw [h4]
  exact congrArg (fun x => some (Instr.srot x)) h1

theorem smin (f : S3) : Statement (.smin f) := by
  intro w h
  obtain ⟨h1, h2, h3, h4⟩ := S3.coding f 0x02#6 4#3 w (Option.some.inj h).symm
  refine ⟨?_, by rw [h2]; decide, by rw [h3]; rfl⟩
  unfold candidate
  rw [h2]
  show candidate02 w = _
  unfold candidate02
  rw [h4]
  exact congrArg (fun x => some (Instr.smin x)) h1

theorem smax (f : S3) : Statement (.smax f) := by
  intro w h
  obtain ⟨h1, h2, h3, h4⟩ := S3.coding f 0x02#6 5#3 w (Option.some.inj h).symm
  refine ⟨?_, by rw [h2]; decide, by rw [h3]; rfl⟩
  unfold candidate
  rw [h2]
  show candidate02 w = _
  unfold candidate02
  rw [h4]
  exact congrArg (fun x => some (Instr.smax x)) h1

theorem sminu (f : S3) : Statement (.sminu f) := by
  intro w h
  obtain ⟨h1, h2, h3, h4⟩ := S3.coding f 0x02#6 6#3 w (Option.some.inj h).symm
  refine ⟨?_, by rw [h2]; decide, by rw [h3]; rfl⟩
  unfold candidate
  rw [h2]
  show candidate02 w = _
  unfold candidate02
  rw [h4]
  exact congrArg (fun x => some (Instr.sminu x)) h1

theorem smaxu (f : S3) : Statement (.smaxu f) := by
  intro w h
  obtain ⟨h1, h2, h3, h4⟩ := S3.coding f 0x02#6 7#3 w (Option.some.inj h).symm
  refine ⟨?_, by rw [h2]; decide, by rw [h3]; rfl⟩
  unfold candidate
  rw [h2]
  show candidate02 w = _
  unfold candidate02
  rw [h4]
  exact congrArg (fun x => some (Instr.smaxu x)) h1

theorem slea4 (f : S3) : Statement (.slea4 f) := by
  intro w h
  obtain ⟨h1, h2, h3, h4⟩ := S3.coding f 0x03#6 0#3 w (Option.some.inj h).symm
  refine ⟨?_, by rw [h2]; decide, by rw [h3]; rfl⟩
  unfold candidate
  rw [h2]
  show candidate03 w = _
  unfold candidate03
  rw [h4]
  exact congrArg (fun x => some (Instr.slea4 x)) h1

theorem slea8 (f : S3) : Statement (.slea8 f) := by
  intro w h
  obtain ⟨h1, h2, h3, h4⟩ := S3.coding f 0x03#6 1#3 w (Option.some.inj h).symm
  refine ⟨?_, by rw [h2]; decide, by rw [h3]; rfl⟩
  unfold candidate
  rw [h2]
  show candidate03 w = _
  unfold candidate03
  rw [h4]
  exact congrArg (fun x => some (Instr.slea8 x)) h1

theorem smulhu (f : S3) : Statement (.smulhu f) := by
  intro w h
  obtain ⟨h1, h2, h3, h4⟩ := S3.coding f 0x03#6 2#3 w (Option.some.inj h).symm
  refine ⟨?_, by rw [h2]; decide, by rw [h3]; rfl⟩
  unfold candidate
  rw [h2]
  show candidate03 w = _
  unfold candidate03
  rw [h4]
  exact congrArg (fun x => some (Instr.smulhu x)) h1

theorem saddi (f : SI) : Statement (.saddi f) := by
  intro w h
  obtain ⟨h1, h2, h3⟩ := SI.coding f 0x04#6 w (Option.some.inj h).symm
  refine ⟨?_, by rw [h2]; decide, by rw [h3]; rfl⟩
  unfold candidate
  rw [h2]
  exact congrArg (fun x => some (Instr.saddi x)) h1

theorem sandi (f : SI) : Statement (.sandi f) := by
  intro w h
  obtain ⟨h1, h2, h3⟩ := SI.coding f 0x05#6 w (Option.some.inj h).symm
  refine ⟨?_, by rw [h2]; decide, by rw [h3]; rfl⟩
  unfold candidate
  rw [h2]
  exact congrArg (fun x => some (Instr.sandi x)) h1

theorem sshli (f : SH) : Statement (.sshli f) := by
  intro w h
  obtain ⟨h1, h2, h3⟩ := SH.coding f 0x06#6 w (Option.some.inj h).symm
  refine ⟨?_, by rw [h2]; decide, by rw [h3]; rfl⟩
  unfold candidate
  rw [h2]
  exact congrArg (fun x => some (Instr.sshli x)) h1

theorem sshri (f : SH) : Statement (.sshri f) := by
  intro w h
  obtain ⟨h1, h2, h3⟩ := SH.coding f 0x07#6 w (Option.some.inj h).symm
  refine ⟨?_, by rw [h2]; decide, by rw [h3]; rfl⟩
  unfold candidate
  rw [h2]
  exact congrArg (fun x => some (Instr.sshri x)) h1

theorem smovi (f : LI) : Statement (.smovi f) := by
  intro w h
  obtain ⟨h1, h2, h3⟩ := LI.coding f 0x08#6 w (Option.some.inj h).symm
  refine ⟨?_, by rw [h2]; decide, by rw [h3]; rfl⟩
  unfold candidate
  rw [h2]
  exact congrArg (fun x => some (Instr.smovi x)) h1

theorem sseth (f : LI) : Statement (.sseth f) := by
  intro w h
  obtain ⟨h1, h2, h3⟩ := LI.coding f 0x09#6 w (Option.some.inj h).symm
  refine ⟨?_, by rw [h2]; decide, by rw [h3]; rfl⟩
  unfold candidate
  rw [h2]
  exact congrArg (fun x => some (Instr.sseth x)) h1

theorem ssett (f : LI) : Statement (.ssett f) := by
  intro w h
  obtain ⟨h1, h2, h3⟩ := LI.coding f 0x0A#6 w (Option.some.inj h).symm
  refine ⟨?_, by rw [h2]; decide, by rw [h3]; rfl⟩
  unfold candidate
  rw [h2]
  exact congrArg (fun x => some (Instr.ssett x)) h1

theorem scmp (f : CS) : Statement (.scmp f) := by
  intro w h
  obtain ⟨h1, h2, h3⟩ := CS.coding f 0x0B#6 w (Option.some.inj h).symm
  refine ⟨?_, by rw [h2]; decide, by rw [h3]; rfl⟩
  unfold candidate
  rw [h2]
  exact congrArg (fun x => some (Instr.scmp x)) h1

theorem smov (f : FS) : Statement (.smov f) := by
  intro w h
  obtain ⟨h1, h2, h3, h4⟩ := FS.coding f 0x0C#6 0#6 w (Option.some.inj h).symm
  refine ⟨?_, by rw [h2]; decide, by rw [h3]; rfl⟩
  unfold candidate
  rw [h2]
  show candidate0C w = _
  unfold candidate0C
  rw [h4]
  exact congrArg (fun x => some (Instr.smov x)) h1

theorem snot (f : FS) : Statement (.snot f) := by
  intro w h
  obtain ⟨h1, h2, h3, h4⟩ := FS.coding f 0x0C#6 1#6 w (Option.some.inj h).symm
  refine ⟨?_, by rw [h2]; decide, by rw [h3]; rfl⟩
  unfold candidate
  rw [h2]
  show candidate0C w = _
  unfold candidate0C
  rw [h4]
  exact congrArg (fun x => some (Instr.snot x)) h1

theorem sneg (f : FS) : Statement (.sneg f) := by
  intro w h
  obtain ⟨h1, h2, h3, h4⟩ := FS.coding f 0x0C#6 2#6 w (Option.some.inj h).symm
  refine ⟨?_, by rw [h2]; decide, by rw [h3]; rfl⟩
  unfold candidate
  rw [h2]
  show candidate0C w = _
  unfold candidate0C
  rw [h4]
  exact congrArg (fun x => some (Instr.sneg x)) h1

theorem spopc (f : FS) : Statement (.spopc f) := by
  intro w h
  obtain ⟨h1, h2, h3, h4⟩ := FS.coding f 0x0C#6 3#6 w (Option.some.inj h).symm
  refine ⟨?_, by rw [h2]; decide, by rw [h3]; rfl⟩
  unfold candidate
  rw [h2]
  show candidate0C w = _
  unfold candidate0C
  rw [h4]
  exact congrArg (fun x => some (Instr.spopc x)) h1

theorem sclz (f : FS) : Statement (.sclz f) := by
  intro w h
  obtain ⟨h1, h2, h3, h4⟩ := FS.coding f 0x0C#6 4#6 w (Option.some.inj h).symm
  refine ⟨?_, by rw [h2]; decide, by rw [h3]; rfl⟩
  unfold candidate
  rw [h2]
  show candidate0C w = _
  unfold candidate0C
  rw [h4]
  exact congrArg (fun x => some (Instr.sclz x)) h1

theorem sctz (f : FS) : Statement (.sctz f) := by
  intro w h
  obtain ⟨h1, h2, h3, h4⟩ := FS.coding f 0x0C#6 5#6 w (Option.some.inj h).symm
  refine ⟨?_, by rw [h2]; decide, by rw [h3]; rfl⟩
  unfold candidate
  rw [h2]
  show candidate0C w = _
  unfold candidate0C
  rw [h4]
  exact congrArg (fun x => some (Instr.sctz x)) h1

theorem sbrev (f : FS) : Statement (.sbrev f) := by
  intro w h
  obtain ⟨h1, h2, h3, h4⟩ := FS.coding f 0x0C#6 6#6 w (Option.some.inj h).symm
  refine ⟨?_, by rw [h2]; decide, by rw [h3]; rfl⟩
  unfold candidate
  rw [h2]
  show candidate0C w = _
  unfold candidate0C
  rw [h4]
  exact congrArg (fun x => some (Instr.sbrev x)) h1

theorem ssext32 (f : FS) : Statement (.ssext32 f) := by
  intro w h
  obtain ⟨h1, h2, h3, h4⟩ := FS.coding f 0x0C#6 7#6 w (Option.some.inj h).symm
  refine ⟨?_, by rw [h2]; decide, by rw [h3]; rfl⟩
  unfold candidate
  rw [h2]
  show candidate0C w = _
  unfold candidate0C
  rw [h4]
  exact congrArg (fun x => some (Instr.ssext32 x)) h1

theorem szext32 (f : FS) : Statement (.szext32 f) := by
  intro w h
  obtain ⟨h1, h2, h3, h4⟩ := FS.coding f 0x0C#6 8#6 w (Option.some.inj h).symm
  refine ⟨?_, by rw [h2]; decide, by rw [h3]; rfl⟩
  unfold candidate
  rw [h2]
  show candidate0C w = _
  unfold candidate0C
  rw [h4]
  exact congrArg (fun x => some (Instr.szext32 x)) h1

theorem sabs (f : FS) : Statement (.sabs f) := by
  intro w h
  obtain ⟨h1, h2, h3, h4⟩ := FS.coding f 0x0C#6 9#6 w (Option.some.inj h).symm
  refine ⟨?_, by rw [h2]; decide, by rw [h3]; rfl⟩
  unfold candidate
  rw [h2]
  show candidate0C w = _
  unfold candidate0C
  rw [h4]
  exact congrArg (fun x => some (Instr.sabs x)) h1

theorem mand (f : S3) : Statement (.mand f) := by
  intro w h
  obtain ⟨h1, h2, h3, h4⟩ := S3.coding f 0x0D#6 0#3 w (Option.some.inj h).symm
  refine ⟨?_, by rw [h2]; decide, by rw [h3]; rfl⟩
  unfold candidate
  rw [h2]
  show candidate0D w = _
  unfold candidate0D
  rw [h4]
  exact congrArg (fun x => some (Instr.mand x)) h1

theorem mandn (f : S3) : Statement (.mandn f) := by
  intro w h
  obtain ⟨h1, h2, h3, h4⟩ := S3.coding f 0x0D#6 1#3 w (Option.some.inj h).symm
  refine ⟨?_, by rw [h2]; decide, by rw [h3]; rfl⟩
  unfold candidate
  rw [h2]
  show candidate0D w = _
  unfold candidate0D
  rw [h4]
  exact congrArg (fun x => some (Instr.mandn x)) h1

theorem mor (f : S3) : Statement (.mor f) := by
  intro w h
  obtain ⟨h1, h2, h3, h4⟩ := S3.coding f 0x0D#6 2#3 w (Option.some.inj h).symm
  refine ⟨?_, by rw [h2]; decide, by rw [h3]; rfl⟩
  unfold candidate
  rw [h2]
  show candidate0D w = _
  unfold candidate0D
  rw [h4]
  exact congrArg (fun x => some (Instr.mor x)) h1

theorem mxor (f : S3) : Statement (.mxor f) := by
  intro w h
  obtain ⟨h1, h2, h3, h4⟩ := S3.coding f 0x0D#6 3#3 w (Option.some.inj h).symm
  refine ⟨?_, by rw [h2]; decide, by rw [h3]; rfl⟩
  unfold candidate
  rw [h2]
  show candidate0D w = _
  unfold candidate0D
  rw [h4]
  exact congrArg (fun x => some (Instr.mxor x)) h1

theorem mnot (f : FS) : Statement (.mnot f) := by
  intro w h
  obtain ⟨h1, h2, h3, h4⟩ := FS.coding f 0x0E#6 0#6 w (Option.some.inj h).symm
  refine ⟨?_, by rw [h2]; decide, by rw [h3]; rfl⟩
  unfold candidate
  rw [h2]
  show candidate0E w = _
  unfold candidate0E
  rw [h4]
  exact congrArg (fun x => some (Instr.mnot x)) h1

theorem mpopc (f : FS) : Statement (.mpopc f) := by
  intro w h
  obtain ⟨h1, h2, h3, h4⟩ := FS.coding f 0x0E#6 1#6 w (Option.some.inj h).symm
  refine ⟨?_, by rw [h2]; decide, by rw [h3]; rfl⟩
  unfold candidate
  rw [h2]
  show candidate0E w = _
  unfold candidate0E
  rw [h4]
  exact congrArg (fun x => some (Instr.mpopc x)) h1

theorem mffs (f : FS) : Statement (.mffs f) := by
  intro w h
  obtain ⟨h1, h2, h3, h4⟩ := FS.coding f 0x0E#6 2#6 w (Option.some.inj h).symm
  refine ⟨?_, by rw [h2]; decide, by rw [h3]; rfl⟩
  unfold candidate
  rw [h2]
  show candidate0E w = _
  unfold candidate0E
  rw [h4]
  exact congrArg (fun x => some (Instr.mffs x)) h1

theorem mset (f : FS) : Statement (.mset f) := by
  intro w h
  obtain ⟨h1, h2, h3, h4⟩ := FS.coding f 0x0E#6 3#6 w (Option.some.inj h).symm
  refine ⟨?_, by rw [h2]; decide, by rw [h3]; rfl⟩
  unfold candidate
  rw [h2]
  show candidate0E w = _
  unfold candidate0E
  rw [h4]
  exact congrArg (fun x => some (Instr.mset x)) h1

theorem mclr (f : FS) : Statement (.mclr f) := by
  intro w h
  obtain ⟨h1, h2, h3, h4⟩ := FS.coding f 0x0E#6 4#6 w (Option.some.inj h).symm
  refine ⟨?_, by rw [h2]; decide, by rw [h3]; rfl⟩
  unfold candidate
  rw [h2]
  show candidate0E w = _
  unfold candidate0E
  rw [h4]
  exact congrArg (fun x => some (Instr.mclr x)) h1

theorem mcpy (f : FS) : Statement (.mcpy f) := by
  intro w h
  obtain ⟨h1, h2, h3, h4⟩ := FS.coding f 0x0E#6 5#6 w (Option.some.inj h).symm
  refine ⟨?_, by rw [h2]; decide, by rw [h3]; rfl⟩
  unfold candidate
  rw [h2]
  show candidate0E w = _
  unfold candidate0E
  rw [h4]
  exact congrArg (fun x => some (Instr.mcpy x)) h1

theorem br (f : BX) : Statement (.br f) := by
  intro w h
  obtain ⟨h1, h2, h3⟩ := BX.coding f 0x0F#6 w (Option.some.inj h).symm
  refine ⟨?_, by rw [h2]; decide, by rw [h3]; rfl⟩
  unfold candidate
  rw [h2]
  exact congrArg (fun x => some (Instr.br x)) h1

theorem brz (f : BX) : Statement (.brz f) := by
  intro w h
  obtain ⟨h1, h2, h3⟩ := BX.coding f 0x10#6 w (Option.some.inj h).symm
  refine ⟨?_, by rw [h2]; decide, by rw [h3]; rfl⟩
  unfold candidate
  rw [h2]
  exact congrArg (fun x => some (Instr.brz x)) h1

theorem brnz (f : BX) : Statement (.brnz f) := by
  intro w h
  obtain ⟨h1, h2, h3⟩ := BX.coding f 0x11#6 w (Option.some.inj h).symm
  refine ⟨?_, by rw [h2]; decide, by rw [h3]; rfl⟩
  unfold candidate
  rw [h2]
  exact congrArg (fun x => some (Instr.brnz x)) h1

theorem brzm (f : BX) : Statement (.brzm f) := by
  intro w h
  obtain ⟨h1, h2, h3⟩ := BX.coding f 0x12#6 w (Option.some.inj h).symm
  refine ⟨?_, by rw [h2]; decide, by rw [h3]; rfl⟩
  unfold candidate
  rw [h2]
  exact congrArg (fun x => some (Instr.brzm x)) h1

theorem brnzm (f : BX) : Statement (.brnzm f) := by
  intro w h
  obtain ⟨h1, h2, h3⟩ := BX.coding f 0x13#6 w (Option.some.inj h).symm
  refine ⟨?_, by rw [h2]; decide, by rw [h3]; rfl⟩
  unfold candidate
  rw [h2]
  exact congrArg (fun x => some (Instr.brnzm x)) h1

theorem call (f : BX) : Statement (.call f) := by
  intro w h
  obtain ⟨h1, h2, h3⟩ := BX.coding f 0x14#6 w (Option.some.inj h).symm
  refine ⟨?_, by rw [h2]; decide, by rw [h3]; rfl⟩
  unfold candidate
  rw [h2]
  exact congrArg (fun x => some (Instr.call x)) h1

theorem jmpr (f : FS) : Statement (.jmpr f) := by
  intro w h
  obtain ⟨h1, h2, h3, h4⟩ := FS.coding f 0x15#6 0#6 w (Option.some.inj h).symm
  refine ⟨?_, by rw [h2]; decide, by rw [h3]; rfl⟩
  unfold candidate
  rw [h2]
  show candidate15 w = _
  unfold candidate15
  rw [h4]
  exact congrArg (fun x => some (Instr.jmpr x)) h1

theorem callr (f : FS) : Statement (.callr f) := by
  intro w h
  obtain ⟨h1, h2, h3, h4⟩ := FS.coding f 0x15#6 1#6 w (Option.some.inj h).symm
  refine ⟨?_, by rw [h2]; decide, by rw [h3]; rfl⟩
  unfold candidate
  rw [h2]
  show candidate15 w = _
  unfold candidate15
  rw [h4]
  exact congrArg (fun x => some (Instr.callr x)) h1

theorem ret (f : FS) : Statement (.ret f) := by
  intro w h
  obtain ⟨h1, h2, h3, h4⟩ := FS.coding f 0x15#6 2#6 w (Option.some.inj h).symm
  refine ⟨?_, by rw [h2]; decide, by rw [h3]; rfl⟩
  unfold candidate
  rw [h2]
  show candidate15 w = _
  unfold candidate15
  rw [h4]
  exact congrArg (fun x => some (Instr.ret x)) h1

theorem mma (f : EN) : Statement (.mma f) := by
  intro w h
  obtain ⟨h1, h2, h3, h4⟩ := EN.coding f 0x16#6 0#2 w (Option.some.inj h).symm
  refine ⟨?_, by rw [h2]; decide, by rw [h3]; rfl⟩
  unfold candidate
  rw [h2]
  show candidate16 w = _
  unfold candidate16
  rw [h4]
  exact congrArg (fun x => some (Instr.mma x)) h1

theorem mmag (f : EN) : Statement (.mmag f) := by
  intro w h
  obtain ⟨h1, h2, h3, h4⟩ := EN.coding f 0x16#6 1#2 w (Option.some.inj h).symm
  refine ⟨?_, by rw [h2]; decide, by rw [h3]; rfl⟩
  unfold candidate
  rw [h2]
  show candidate16 w = _
  unfold candidate16
  rw [h4]
  exact congrArg (fun x => some (Instr.mmag x)) h1

theorem mzero (f : EN) : Statement (.mzero f) := by
  intro w h
  obtain ⟨h1, h2, h3, h4⟩ := EN.coding f 0x16#6 2#2 w (Option.some.inj h).symm
  refine ⟨?_, by rw [h2]; decide, by rw [h3]; rfl⟩
  unfold candidate
  rw [h2]
  show candidate16 w = _
  unfold candidate16
  rw [h4]
  exact congrArg (fun x => some (Instr.mzero x)) h1

theorem mldacc (f : EN) : Statement (.mldacc f) := by
  intro w h
  obtain ⟨h1, h2, h3, h4⟩ := EN.coding f 0x16#6 3#2 w (Option.some.inj h).symm
  refine ⟨?_, by rw [h2]; decide, by rw [h3]; rfl⟩
  unfold candidate
  rw [h2]
  show candidate16 w = _
  unfold candidate16
  rw [h4]
  exact congrArg (fun x => some (Instr.mldacc x)) h1

theorem mdrain (f : EN) : Statement (.mdrain f) := by
  intro w h
  obtain ⟨h1, h2, h3, h4⟩ := EN.coding f 0x17#6 0#2 w (Option.some.inj h).symm
  refine ⟨?_, by rw [h2]; decide, by rw [h3]; rfl⟩
  unfold candidate
  rw [h2]
  show candidate17 w = _
  unfold candidate17
  rw [h4]
  exact congrArg (fun x => some (Instr.mdrain x)) h1

theorem mdraina (f : EN) : Statement (.mdraina f) := by
  intro w h
  obtain ⟨h1, h2, h3, h4⟩ := EN.coding f 0x17#6 1#2 w (Option.some.inj h).symm
  refine ⟨?_, by rw [h2]; decide, by rw [h3]; rfl⟩
  unfold candidate
  rw [h2]
  show candidate17 w = _
  unfold candidate17
  rw [h4]
  exact congrArg (fun x => some (Instr.mdraina x)) h1

theorem mqnt (f : EN) : Statement (.mqnt f) := by
  intro w h
  obtain ⟨h1, h2, h3, h4⟩ := EN.coding f 0x17#6 2#2 w (Option.some.inj h).symm
  refine ⟨?_, by rw [h2]; decide, by rw [h3]; rfl⟩
  unfold candidate
  rw [h2]
  show candidate17 w = _
  unfold candidate17
  rw [h4]
  exact congrArg (fun x => some (Instr.mqnt x)) h1

theorem mdrainb (f : EN) : Statement (.mdrainb f) := by
  intro w h
  obtain ⟨h1, h2, h3, h4⟩ := EN.coding f 0x17#6 3#2 w (Option.some.inj h).symm
  refine ⟨?_, by rw [h2]; decide, by rw [h3]; rfl⟩
  unfold candidate
  rw [h2]
  show candidate17 w = _
  unfold candidate17
  rw [h4]
  exact congrArg (fun x => some (Instr.mdrainb x)) h1

theorem vadd (f : V3) : Statement (.vadd f) := by
  intro w h
  obtain ⟨h1, h2, h3, h4⟩ := V3.coding f 0x18#6 0#1 w (Option.some.inj h).symm
  refine ⟨?_, by rw [h2]; decide, by rw [h3]; rfl⟩
  unfold candidate
  rw [h2]
  show candidate18 w = _
  unfold candidate18
  rw [h4]
  exact congrArg (fun x => some (Instr.vadd x)) h1

theorem vsub (f : V3) : Statement (.vsub f) := by
  intro w h
  obtain ⟨h1, h2, h3, h4⟩ := V3.coding f 0x18#6 1#1 w (Option.some.inj h).symm
  refine ⟨?_, by rw [h2]; decide, by rw [h3]; rfl⟩
  unfold candidate
  rw [h2]
  show candidate18 w = _
  unfold candidate18
  rw [h4]
  exact congrArg (fun x => some (Instr.vsub x)) h1

theorem vmul (f : V3) : Statement (.vmul f) := by
  intro w h
  obtain ⟨h1, h2, h3, h4⟩ := V3.coding f 0x19#6 0#1 w (Option.some.inj h).symm
  refine ⟨?_, by rw [h2]; decide, by rw [h3]; rfl⟩
  unfold candidate
  rw [h2]
  show candidate19 w = _
  unfold candidate19
  rw [h4]
  exact congrArg (fun x => some (Instr.vmul x)) h1

theorem vmulh (f : V3) : Statement (.vmulh f) := by
  intro w h
  obtain ⟨h1, h2, h3, h4⟩ := V3.coding f 0x19#6 1#1 w (Option.some.inj h).symm
  refine ⟨?_, by rw [h2]; decide, by rw [h3]; rfl⟩
  unfold candidate
  rw [h2]
  show candidate19 w = _
  unfold candidate19
  rw [h4]
  exact congrArg (fun x => some (Instr.vmulh x)) h1

theorem vfma (f : V3) : Statement (.vfma f) := by
  intro w h
  obtain ⟨h1, h2, h3, h4⟩ := V3.coding f 0x1A#6 0#1 w (Option.some.inj h).symm
  refine ⟨?_, by rw [h2]; decide, by rw [h3]; rfl⟩
  unfold candidate
  rw [h2]
  show candidate1A w = _
  unfold candidate1A
  rw [h4]
  exact congrArg (fun x => some (Instr.vfma x)) h1

theorem vfms (f : V3) : Statement (.vfms f) := by
  intro w h
  obtain ⟨h1, h2, h3, h4⟩ := V3.coding f 0x1A#6 1#1 w (Option.some.inj h).symm
  refine ⟨?_, by rw [h2]; decide, by rw [h3]; rfl⟩
  unfold candidate
  rw [h2]
  show candidate1A w = _
  unfold candidate1A
  rw [h4]
  exact congrArg (fun x => some (Instr.vfms x)) h1

theorem vmin (f : V3) : Statement (.vmin f) := by
  intro w h
  obtain ⟨h1, h2, h3, h4⟩ := V3.coding f 0x1B#6 0#1 w (Option.some.inj h).symm
  refine ⟨?_, by rw [h2]; decide, by rw [h3]; rfl⟩
  unfold candidate
  rw [h2]
  show candidate1B w = _
  unfold candidate1B
  rw [h4]
  exact congrArg (fun x => some (Instr.vmin x)) h1

theorem vmax (f : V3) : Statement (.vmax f) := by
  intro w h
  obtain ⟨h1, h2, h3, h4⟩ := V3.coding f 0x1B#6 1#1 w (Option.some.inj h).symm
  refine ⟨?_, by rw [h2]; decide, by rw [h3]; rfl⟩
  unfold candidate
  rw [h2]
  show candidate1B w = _
  unfold candidate1B
  rw [h4]
  exact congrArg (fun x => some (Instr.vmax x)) h1

theorem vand (f : V3) : Statement (.vand f) := by
  intro w h
  obtain ⟨h1, h2, h3, h4⟩ := V3.coding f 0x1C#6 0#1 w (Option.some.inj h).symm
  refine ⟨?_, by rw [h2]; decide, by rw [h3]; rfl⟩
  unfold candidate
  rw [h2]
  show candidate1C w = _
  unfold candidate1C
  rw [h4]
  exact congrArg (fun x => some (Instr.vand x)) h1

theorem vor (f : V3) : Statement (.vor f) := by
  intro w h
  obtain ⟨h1, h2, h3, h4⟩ := V3.coding f 0x1C#6 1#1 w (Option.some.inj h).symm
  refine ⟨?_, by rw [h2]; decide, by rw [h3]; rfl⟩
  unfold candidate
  rw [h2]
  show candidate1C w = _
  unfold candidate1C
  rw [h4]
  exact congrArg (fun x => some (Instr.vor x)) h1

theorem vxor (f : V3) : Statement (.vxor f) := by
  intro w h
  obtain ⟨h1, h2, h3, h4⟩ := V3.coding f 0x1D#6 0#1 w (Option.some.inj h).symm
  refine ⟨?_, by rw [h2]; decide, by rw [h3]; rfl⟩
  unfold candidate
  rw [h2]
  show candidate1D w = _
  unfold candidate1D
  rw [h4]
  exact congrArg (fun x => some (Instr.vxor x)) h1

theorem vandn (f : V3) : Statement (.vandn f) := by
  intro w h
  obtain ⟨h1, h2, h3, h4⟩ := V3.coding f 0x1D#6 1#1 w (Option.some.inj h).symm
  refine ⟨?_, by rw [h2]; decide, by rw [h3]; rfl⟩
  unfold candidate
  rw [h2]
  show candidate1D w = _
  unfold candidate1D
  rw [h4]
  exact congrArg (fun x => some (Instr.vandn x)) h1

theorem vshl (f : V3) : Statement (.vshl f) := by
  intro w h
  obtain ⟨h1, h2, h3, h4⟩ := V3.coding f 0x1E#6 0#1 w (Option.some.inj h).symm
  refine ⟨?_, by rw [h2]; decide, by rw [h3]; rfl⟩
  unfold candidate
  rw [h2]
  show candidate1E w = _
  unfold candidate1E
  rw [h4]
  exact congrArg (fun x => some (Instr.vshl x)) h1

theorem vshr (f : V3) : Statement (.vshr f) := by
  intro w h
  obtain ⟨h1, h2, h3, h4⟩ := V3.coding f 0x1E#6 1#1 w (Option.some.inj h).symm
  refine ⟨?_, by rw [h2]; decide, by rw [h3]; rfl⟩
  unfold candidate
  rw [h2]
  show candidate1E w = _
  unfold candidate1E
  rw [h4]
  exact congrArg (fun x => some (Instr.vshr x)) h1

theorem vsar (f : V3) : Statement (.vsar f) := by
  intro w h
  obtain ⟨h1, h2, h3, h4⟩ := V3.coding f 0x1F#6 0#1 w (Option.some.inj h).symm
  refine ⟨?_, by rw [h2]; decide, by rw [h3]; rfl⟩
  unfold candidate
  rw [h2]
  show candidate1F w = _
  unfold candidate1F
  rw [h4]
  exact congrArg (fun x => some (Instr.vsar x)) h1

theorem vrot (f : V3) : Statement (.vrot f) := by
  intro w h
  obtain ⟨h1, h2, h3, h4⟩ := V3.coding f 0x1F#6 1#1 w (Option.some.inj h).symm
  refine ⟨?_, by rw [h2]; decide, by rw [h3]; rfl⟩
  unfold candidate
  rw [h2]
  show candidate1F w = _
  unfold candidate1F
  rw [h4]
  exact congrArg (fun x => some (Instr.vrot x)) h1

theorem vcmp (f : CS) : Statement (.vcmp f) := by
  intro w h
  obtain ⟨h1, h2, h3⟩ := CS.coding f 0x20#6 w (Option.some.inj h).symm
  refine ⟨?_, by rw [h2]; decide, by rw [h3]; rfl⟩
  unfold candidate
  rw [h2]
  exact congrArg (fun x => some (Instr.vcmp x)) h1

theorem vsel (f : V3) : Statement (.vsel f) := by
  intro w h
  obtain ⟨h1, h2, h3, h4⟩ := V3.coding f 0x21#6 0#1 w (Option.some.inj h).symm
  refine ⟨?_, by rw [h2]; decide, by rw [h3]; rfl⟩
  unfold candidate
  rw [h2]
  show candidate21 w = _
  unfold candidate21
  rw [h4]
  exact congrArg (fun x => some (Instr.vsel x)) h1

theorem vflk (f : V3) : Statement (.vflk f) := by
  intro w h
  obtain ⟨h1, h2, h3, h4⟩ := V3.coding f 0x21#6 1#1 w (Option.some.inj h).symm
  refine ⟨?_, by rw [h2]; decide, by rw [h3]; rfl⟩
  unfold candidate
  rw [h2]
  show candidate21 w = _
  unfold candidate21
  rw [h4]
  exact congrArg (fun x => some (Instr.vflk x)) h1

theorem vmov (f : FS) : Statement (.vmov f) := by
  intro w h
  obtain ⟨h1, h2, h3, h4⟩ := FS.coding f 0x22#6 0#6 w (Option.some.inj h).symm
  refine ⟨?_, by rw [h2]; decide, by rw [h3]; rfl⟩
  unfold candidate
  rw [h2]
  show candidate22 w = _
  unfold candidate22
  rw [h4]
  exact congrArg (fun x => some (Instr.vmov x)) h1

theorem vneg (f : FS) : Statement (.vneg f) := by
  intro w h
  obtain ⟨h1, h2, h3, h4⟩ := FS.coding f 0x22#6 1#6 w (Option.some.inj h).symm
  refine ⟨?_, by rw [h2]; decide, by rw [h3]; rfl⟩
  unfold candidate
  rw [h2]
  show candidate22 w = _
  unfold candidate22
  rw [h4]
  exact congrArg (fun x => some (Instr.vneg x)) h1

theorem vabs (f : FS) : Statement (.vabs f) := by
  intro w h
  obtain ⟨h1, h2, h3, h4⟩ := FS.coding f 0x22#6 2#6 w (Option.some.inj h).symm
  refine ⟨?_, by rw [h2]; decide, by rw [h3]; rfl⟩
  unfold candidate
  rw [h2]
  show candidate22 w = _
  unfold candidate22
  rw [h4]
  exact congrArg (fun x => some (Instr.vabs x)) h1

theorem vnot (f : FS) : Statement (.vnot f) := by
  intro w h
  obtain ⟨h1, h2, h3, h4⟩ := FS.coding f 0x22#6 3#6 w (Option.some.inj h).symm
  refine ⟨?_, by rw [h2]; decide, by rw [h3]; rfl⟩
  unfold candidate
  rw [h2]
  show candidate22 w = _
  unfold candidate22
  rw [h4]
  exact congrArg (fun x => some (Instr.vnot x)) h1

theorem vpopc (f : FS) : Statement (.vpopc f) := by
  intro w h
  obtain ⟨h1, h2, h3, h4⟩ := FS.coding f 0x22#6 4#6 w (Option.some.inj h).symm
  refine ⟨?_, by rw [h2]; decide, by rw [h3]; rfl⟩
  unfold candidate
  rw [h2]
  show candidate22 w = _
  unfold candidate22
  rw [h4]
  exact congrArg (fun x => some (Instr.vpopc x)) h1

theorem vclz (f : FS) : Statement (.vclz f) := by
  intro w h
  obtain ⟨h1, h2, h3, h4⟩ := FS.coding f 0x22#6 5#6 w (Option.some.inj h).symm
  refine ⟨?_, by rw [h2]; decide, by rw [h3]; rfl⟩
  unfold candidate
  rw [h2]
  show candidate22 w = _
  unfold candidate22
  rw [h4]
  exact congrArg (fun x => some (Instr.vclz x)) h1

theorem vflr (f : FS) : Statement (.vflr f) := by
  intro w h
  obtain ⟨h1, h2, h3, h4⟩ := FS.coding f 0x22#6 6#6 w (Option.some.inj h).symm
  refine ⟨?_, by rw [h2]; decide, by rw [h3]; rfl⟩
  unfold candidate
  rw [h2]
  show candidate22 w = _
  unfold candidate22
  rw [h4]
  exact congrArg (fun x => some (Instr.vflr x)) h1

theorem vceil (f : FS) : Statement (.vceil f) := by
  intro w h
  obtain ⟨h1, h2, h3, h4⟩ := FS.coding f 0x22#6 7#6 w (Option.some.inj h).symm
  refine ⟨?_, by rw [h2]; decide, by rw [h3]; rfl⟩
  unfold candidate
  rw [h2]
  show candidate22 w = _
  unfold candidate22
  rw [h4]
  exact congrArg (fun x => some (Instr.vceil x)) h1

theorem vtrnc (f : FS) : Statement (.vtrnc f) := by
  intro w h
  obtain ⟨h1, h2, h3, h4⟩ := FS.coding f 0x22#6 8#6 w (Option.some.inj h).symm
  refine ⟨?_, by rw [h2]; decide, by rw [h3]; rfl⟩
  unfold candidate
  rw [h2]
  show candidate22 w = _
  unfold candidate22
  rw [h4]
  exact congrArg (fun x => some (Instr.vtrnc x)) h1

theorem vrnd (f : FS) : Statement (.vrnd f) := by
  intro w h
  obtain ⟨h1, h2, h3, h4⟩ := FS.coding f 0x22#6 9#6 w (Option.some.inj h).symm
  refine ⟨?_, by rw [h2]; decide, by rw [h3]; rfl⟩
  unfold candidate
  rw [h2]
  show candidate22 w = _
  unfold candidate22
  rw [h4]
  exact congrArg (fun x => some (Instr.vrnd x)) h1

theorem vlane (f : FS) : Statement (.vlane f) := by
  intro w h
  obtain ⟨h1, h2, h3, h4⟩ := FS.coding f 0x22#6 10#6 w (Option.some.inj h).symm
  refine ⟨?_, by rw [h2]; decide, by rw [h3]; rfl⟩
  unfold candidate
  rw [h2]
  show candidate22 w = _
  unfold candidate22
  rw [h4]
  exact congrArg (fun x => some (Instr.vlane x)) h1

theorem vbrev (f : FS) : Statement (.vbrev f) := by
  intro w h
  obtain ⟨h1, h2, h3, h4⟩ := FS.coding f 0x22#6 11#6 w (Option.some.inj h).symm
  refine ⟨?_, by rw [h2]; decide, by rw [h3]; rfl⟩
  unfold candidate
  rw [h2]
  show candidate22 w = _
  unfold candidate22
  rw [h4]
  exact congrArg (fun x => some (Instr.vbrev x)) h1

theorem vclass (f : FS) : Statement (.vclass f) := by
  intro w h
  obtain ⟨h1, h2, h3, h4⟩ := FS.coding f 0x22#6 12#6 w (Option.some.inj h).symm
  refine ⟨?_, by rw [h2]; decide, by rw [h3]; rfl⟩
  unfold candidate
  rw [h2]
  show candidate22 w = _
  unfold candidate22
  rw [h4]
  exact congrArg (fun x => some (Instr.vclass x)) h1

theorem vdiv (f : FL) : Statement (.vdiv f) := by
  intro w h
  obtain ⟨h1, h2, h3, h4⟩ := FL.coding f 0x23#6 0#5 w (Option.some.inj h).symm
  refine ⟨?_, by rw [h2]; decide, by rw [h3]; rfl⟩
  unfold candidate
  rw [h2]
  show candidate23 w = _
  unfold candidate23
  rw [h4]
  exact congrArg (fun x => some (Instr.vdiv x)) h1

theorem vrcp (f : FL) : Statement (.vrcp f) := by
  intro w h
  obtain ⟨h1, h2, h3, h4⟩ := FL.coding f 0x23#6 1#5 w (Option.some.inj h).symm
  refine ⟨?_, by rw [h2]; decide, by rw [h3]; rfl⟩
  unfold candidate
  rw [h2]
  show candidate23 w = _
  unfold candidate23
  rw [h4]
  exact congrArg (fun x => some (Instr.vrcp x)) h1

theorem vsqrt (f : FL) : Statement (.vsqrt f) := by
  intro w h
  obtain ⟨h1, h2, h3, h4⟩ := FL.coding f 0x23#6 2#5 w (Option.some.inj h).symm
  refine ⟨?_, by rw [h2]; decide, by rw [h3]; rfl⟩
  unfold candidate
  rw [h2]
  show candidate23 w = _
  unfold candidate23
  rw [h4]
  exact congrArg (fun x => some (Instr.vsqrt x)) h1

theorem vrsq (f : FL) : Statement (.vrsq f) := by
  intro w h
  obtain ⟨h1, h2, h3, h4⟩ := FL.coding f 0x23#6 3#5 w (Option.some.inj h).symm
  refine ⟨?_, by rw [h2]; decide, by rw [h3]; rfl⟩
  unfold candidate
  rw [h2]
  show candidate23 w = _
  unfold candidate23
  rw [h4]
  exact congrArg (fun x => some (Instr.vrsq x)) h1

theorem vexp2 (f : FL) : Statement (.vexp2 f) := by
  intro w h
  obtain ⟨h1, h2, h3, h4⟩ := FL.coding f 0x23#6 4#5 w (Option.some.inj h).symm
  refine ⟨?_, by rw [h2]; decide, by rw [h3]; rfl⟩
  unfold candidate
  rw [h2]
  show candidate23 w = _
  unfold candidate23
  rw [h4]
  exact congrArg (fun x => some (Instr.vexp2 x)) h1

theorem vlog2 (f : FL) : Statement (.vlog2 f) := by
  intro w h
  obtain ⟨h1, h2, h3, h4⟩ := FL.coding f 0x23#6 5#5 w (Option.some.inj h).symm
  refine ⟨?_, by rw [h2]; decide, by rw [h3]; rfl⟩
  unfold candidate
  rw [h2]
  show candidate23 w = _
  unfold candidate23
  rw [h4]
  exact congrArg (fun x => some (Instr.vlog2 x)) h1

theorem vsin (f : FL) : Statement (.vsin f) := by
  intro w h
  obtain ⟨h1, h2, h3, h4⟩ := FL.coding f 0x23#6 6#5 w (Option.some.inj h).symm
  refine ⟨?_, by rw [h2]; decide, by rw [h3]; rfl⟩
  unfold candidate
  rw [h2]
  show candidate23 w = _
  unfold candidate23
  rw [h4]
  exact congrArg (fun x => some (Instr.vsin x)) h1

theorem vcos (f : FL) : Statement (.vcos f) := by
  intro w h
  obtain ⟨h1, h2, h3, h4⟩ := FL.coding f 0x23#6 7#5 w (Option.some.inj h).symm
  refine ⟨?_, by rw [h2]; decide, by rw [h3]; rfl⟩
  unfold candidate
  rw [h2]
  show candidate23 w = _
  unfold candidate23
  rw [h4]
  exact congrArg (fun x => some (Instr.vcos x)) h1

theorem vtanh (f : FL) : Statement (.vtanh f) := by
  intro w h
  obtain ⟨h1, h2, h3, h4⟩ := FL.coding f 0x23#6 8#5 w (Option.some.inj h).symm
  refine ⟨?_, by rw [h2]; decide, by rw [h3]; rfl⟩
  unfold candidate
  rw [h2]
  show candidate23 w = _
  unfold candidate23
  rw [h4]
  exact congrArg (fun x => some (Instr.vtanh x)) h1

theorem vsigm (f : FL) : Statement (.vsigm f) := by
  intro w h
  obtain ⟨h1, h2, h3, h4⟩ := FL.coding f 0x23#6 9#5 w (Option.some.inj h).symm
  refine ⟨?_, by rw [h2]; decide, by rw [h3]; rfl⟩
  unfold candidate
  rw [h2]
  show candidate23 w = _
  unfold candidate23
  rw [h4]
  exact congrArg (fun x => some (Instr.vsigm x)) h1

theorem vexp (f : FL) : Statement (.vexp f) := by
  intro w h
  obtain ⟨h1, h2, h3, h4⟩ := FL.coding f 0x23#6 10#5 w (Option.some.inj h).symm
  refine ⟨?_, by rw [h2]; decide, by rw [h3]; rfl⟩
  unfold candidate
  rw [h2]
  show candidate23 w = _
  unfold candidate23
  rw [h4]
  exact congrArg (fun x => some (Instr.vexp x)) h1

theorem vlog (f : FL) : Statement (.vlog f) := by
  intro w h
  obtain ⟨h1, h2, h3, h4⟩ := FL.coding f 0x23#6 11#5 w (Option.some.inj h).symm
  refine ⟨?_, by rw [h2]; decide, by rw [h3]; rfl⟩
  unfold candidate
  rw [h2]
  show candidate23 w = _
  unfold candidate23
  rw [h4]
  exact congrArg (fun x => some (Instr.vlog x)) h1

theorem vcvt (f : CVT) : Statement (.vcvt f) := by
  intro w h
  obtain ⟨h1, h2, h3⟩ := CVT.coding f 0x24#6 w (Option.some.inj h).symm
  refine ⟨?_, by rw [h2]; decide, by rw [h3]; rfl⟩
  unfold candidate
  rw [h2]
  exact congrArg (fun x => some (Instr.vcvt x)) h1

theorem vmovs (f : V3) : Statement (.vmovs f) := by
  intro w h
  obtain ⟨h1, h2, h3, h4⟩ := V3.coding f 0x25#6 0#1 w (Option.some.inj h).symm
  refine ⟨?_, by rw [h2]; decide, by rw [h3]; rfl⟩
  unfold candidate
  rw [h2]
  show candidate25 w = _
  unfold candidate25
  rw [h4]
  exact congrArg (fun x => some (Instr.vmovs x)) h1

theorem vgets (f : V3) : Statement (.vgets f) := by
  intro w h
  obtain ⟨h1, h2, h3, h4⟩ := V3.coding f 0x25#6 1#1 w (Option.some.inj h).symm
  refine ⟨?_, by rw [h2]; decide, by rw [h3]; rfl⟩
  unfold candidate
  rw [h2]
  show candidate25 w = _
  unfold candidate25
  rw [h4]
  exact congrArg (fun x => some (Instr.vgets x)) h1

theorem vshfl (f : V3) : Statement (.vshfl f) := by
  intro w h
  obtain ⟨h1, h2, h3, h4⟩ := V3.coding f 0x26#6 0#1 w (Option.some.inj h).symm
  refine ⟨?_, by rw [h2]; decide, by rw [h3]; rfl⟩
  unfold candidate
  rw [h2]
  show candidate26 w = _
  unfold candidate26
  rw [h4]
  exact congrArg (fun x => some (Instr.vshfl x)) h1

theorem vbfly (f : V3) : Statement (.vbfly f) := by
  intro w h
  obtain ⟨h1, h2, h3, h4⟩ := V3.coding f 0x26#6 1#1 w (Option.some.inj h).symm
  refine ⟨?_, by rw [h2]; decide, by rw [h3]; rfl⟩
  unfold candidate
  rw [h2]
  show candidate26 w = _
  unfold candidate26
  rw [h4]
  exact congrArg (fun x => some (Instr.vbfly x)) h1

theorem vredwAdd (f : FS) : Statement (.vredwAdd f) := by
  intro w h
  obtain ⟨h1, h2, h3, h4⟩ := FS.coding f 0x27#6 0#6 w (Option.some.inj h).symm
  refine ⟨?_, by rw [h2]; decide, by rw [h3]; rfl⟩
  unfold candidate
  rw [h2]
  show candidate27 w = _
  unfold candidate27
  rw [h4]
  exact congrArg (fun x => some (Instr.vredwAdd x)) h1

theorem vredwMin (f : FS) : Statement (.vredwMin f) := by
  intro w h
  obtain ⟨h1, h2, h3, h4⟩ := FS.coding f 0x27#6 1#6 w (Option.some.inj h).symm
  refine ⟨?_, by rw [h2]; decide, by rw [h3]; rfl⟩
  unfold candidate
  rw [h2]
  show candidate27 w = _
  unfold candidate27
  rw [h4]
  exact congrArg (fun x => some (Instr.vredwMin x)) h1

theorem vredwMax (f : FS) : Statement (.vredwMax f) := by
  intro w h
  obtain ⟨h1, h2, h3, h4⟩ := FS.coding f 0x27#6 2#6 w (Option.some.inj h).symm
  refine ⟨?_, by rw [h2]; decide, by rw [h3]; rfl⟩
  unfold candidate
  rw [h2]
  show candidate27 w = _
  unfold candidate27
  rw [h4]
  exact congrArg (fun x => some (Instr.vredwMax x)) h1

theorem vredwAnd (f : FS) : Statement (.vredwAnd f) := by
  intro w h
  obtain ⟨h1, h2, h3, h4⟩ := FS.coding f 0x27#6 3#6 w (Option.some.inj h).symm
  refine ⟨?_, by rw [h2]; decide, by rw [h3]; rfl⟩
  unfold candidate
  rw [h2]
  show candidate27 w = _
  unfold candidate27
  rw [h4]
  exact congrArg (fun x => some (Instr.vredwAnd x)) h1

theorem vredwOr (f : FS) : Statement (.vredwOr f) := by
  intro w h
  obtain ⟨h1, h2, h3, h4⟩ := FS.coding f 0x27#6 4#6 w (Option.some.inj h).symm
  refine ⟨?_, by rw [h2]; decide, by rw [h3]; rfl⟩
  unfold candidate
  rw [h2]
  show candidate27 w = _
  unfold candidate27
  rw [h4]
  exact congrArg (fun x => some (Instr.vredwOr x)) h1

theorem vredwXor (f : FS) : Statement (.vredwXor f) := by
  intro w h
  obtain ⟨h1, h2, h3, h4⟩ := FS.coding f 0x27#6 5#6 w (Option.some.inj h).symm
  refine ⟨?_, by rw [h2]; decide, by rw [h3]; rfl⟩
  unfold candidate
  rw [h2]
  show candidate27 w = _
  unfold candidate27
  rw [h4]
  exact congrArg (fun x => some (Instr.vredwXor x)) h1

theorem vaddi (f : VI) : Statement (.vaddi f) := by
  intro w h
  obtain ⟨h1, h2, h3⟩ := VI.coding f 0x28#6 w (Option.some.inj h).symm
  refine ⟨?_, by rw [h2]; decide, by rw [h3]; rfl⟩
  unfold candidate
  rw [h2]
  exact congrArg (fun x => some (Instr.vaddi x)) h1

theorem vmovi (f : LI) : Statement (.vmovi f) := by
  intro w h
  obtain ⟨h1, h2, h3⟩ := LI.coding f 0x29#6 w (Option.some.inj h).symm
  refine ⟨?_, by rw [h2]; decide, by rw [h3]; rfl⟩
  unfold candidate
  rw [h2]
  exact congrArg (fun x => some (Instr.vmovi x)) h1

theorem vqnt (f : QN) : Statement (.vqnt f) := by
  intro w h
  obtain ⟨h1, h2, h3⟩ := QN.coding f 0x2A#6 w (Option.some.inj h).symm
  refine ⟨?_, by rw [h2]; decide, by rw [h3]; rfl⟩
  unfold candidate
  rw [h2]
  exact congrArg (fun x => some (Instr.vqnt x)) h1

theorem vdqnt (f : QN) : Statement (.vdqnt f) := by
  intro w h
  obtain ⟨h1, h2, h3⟩ := QN.coding f 0x2B#6 w (Option.some.inj h).symm
  refine ⟨?_, by rw [h2]; decide, by rw [h3]; rfl⟩
  unfold candidate
  rw [h2]
  exact congrArg (fun x => some (Instr.vdqnt x)) h1

theorem cpy (f : EN) : Statement (.cpy f) := by
  intro w h
  obtain ⟨h1, h2, h3, h4⟩ := EN.coding f 0x2C#6 0#2 w (Option.some.inj h).symm
  refine ⟨?_, by rw [h2]; decide, by rw [h3]; rfl⟩
  unfold candidate
  rw [h2]
  show candidate2C w = _
  unfold candidate2C
  rw [h4]
  exact congrArg (fun x => some (Instr.cpy x)) h1

theorem cpyq (f : EN) : Statement (.cpyq f) := by
  intro w h
  obtain ⟨h1, h2, h3, h4⟩ := EN.coding f 0x2C#6 1#2 w (Option.some.inj h).symm
  refine ⟨?_, by rw [h2]; decide, by rw [h3]; rfl⟩
  unfold candidate
  rw [h2]
  show candidate2C w = _
  unfold candidate2C
  rw [h4]
  exact congrArg (fun x => some (Instr.cpyq x)) h1

theorem cpyp (f : EN) : Statement (.cpyp f) := by
  intro w h
  obtain ⟨h1, h2, h3, h4⟩ := EN.coding f 0x2C#6 2#2 w (Option.some.inj h).symm
  refine ⟨?_, by rw [h2]; decide, by rw [h3]; rfl⟩
  unfold candidate
  rw [h2]
  show candidate2C w = _
  unfold candidate2C
  rw [h4]
  exact congrArg (fun x => some (Instr.cpyp x)) h1

theorem launch (f : EN) : Statement (.launch f) := by
  intro w h
  obtain ⟨h1, h2, h3, h4⟩ := EN.coding f 0x2D#6 0#2 w (Option.some.inj h).symm
  refine ⟨?_, by rw [h2]; decide, by rw [h3]; rfl⟩
  unfold candidate
  rw [h2]
  show candidate2D w = _
  unfold candidate2D
  rw [h4]
  exact congrArg (fun x => some (Instr.launch x)) h1

theorem publish (f : EN) : Statement (.publish f) := by
  intro w h
  obtain ⟨h1, h2, h3, h4⟩ := EN.coding f 0x2D#6 1#2 w (Option.some.inj h).symm
  refine ⟨?_, by rw [h2]; decide, by rw [h3]; rfl⟩
  unfold candidate
  rw [h2]
  show candidate2D w = _
  unfold candidate2D
  rw [h4]
  exact congrArg (fun x => some (Instr.publish x)) h1

theorem unpub (f : EN) : Statement (.unpub f) := by
  intro w h
  obtain ⟨h1, h2, h3, h4⟩ := EN.coding f 0x2D#6 2#2 w (Option.some.inj h).symm
  refine ⟨?_, by rw [h2]; decide, by rw [h3]; rfl⟩
  unfold candidate
  rw [h2]
  show candidate2D w = _
  unfold candidate2D
  rw [h4]
  exact congrArg (fun x => some (Instr.unpub x)) h1

theorem vld (f : MV) : Statement (.vld f) := by
  intro w h
  obtain ⟨h1, h2, h3⟩ := MV.coding f 0x2E#6 w (Option.some.inj h).symm
  refine ⟨?_, by rw [h2]; decide, by rw [h3]; rfl⟩
  unfold candidate
  rw [h2]
  exact congrArg (fun x => some (Instr.vld x)) h1

theorem vldb (f : MV) : Statement (.vldb f) := by
  intro w h
  obtain ⟨h1, h2, h3⟩ := MV.coding f 0x2F#6 w (Option.some.inj h).symm
  refine ⟨?_, by rw [h2]; decide, by rw [h3]; rfl⟩
  unfold candidate
  rw [h2]
  exact congrArg (fun x => some (Instr.vldb x)) h1

theorem vldh (f : MV) : Statement (.vldh f) := by
  intro w h
  obtain ⟨h1, h2, h3⟩ := MV.coding f 0x30#6 w (Option.some.inj h).symm
  refine ⟨?_, by rw [h2]; decide, by rw [h3]; rfl⟩
  unfold candidate
  rw [h2]
  exact congrArg (fun x => some (Instr.vldh x)) h1

theorem vldd (f : MV) : Statement (.vldd f) := by
  intro w h
  obtain ⟨h1, h2, h3⟩ := MV.coding f 0x31#6 w (Option.some.inj h).symm
  refine ⟨?_, by rw [h2]; decide, by rw [h3]; rfl⟩
  unfold candidate
  rw [h2]
  exact congrArg (fun x => some (Instr.vldd x)) h1

theorem vst (f : MV) : Statement (.vst f) := by
  intro w h
  obtain ⟨h1, h2, h3⟩ := MV.coding f 0x32#6 w (Option.some.inj h).symm
  refine ⟨?_, by rw [h2]; decide, by rw [h3]; rfl⟩
  unfold candidate
  rw [h2]
  exact congrArg (fun x => some (Instr.vst x)) h1

theorem vstb (f : MV) : Statement (.vstb f) := by
  intro w h
  obtain ⟨h1, h2, h3⟩ := MV.coding f 0x33#6 w (Option.some.inj h).symm
  refine ⟨?_, by rw [h2]; decide, by rw [h3]; rfl⟩
  unfold candidate
  rw [h2]
  exact congrArg (fun x => some (Instr.vstb x)) h1

theorem vsth (f : MV) : Statement (.vsth f) := by
  intro w h
  obtain ⟨h1, h2, h3⟩ := MV.coding f 0x34#6 w (Option.some.inj h).symm
  refine ⟨?_, by rw [h2]; decide, by rw [h3]; rfl⟩
  unfold candidate
  rw [h2]
  exact congrArg (fun x => some (Instr.vsth x)) h1

theorem vstd (f : MV) : Statement (.vstd f) := by
  intro w h
  obtain ⟨h1, h2, h3⟩ := MV.coding f 0x35#6 w (Option.some.inj h).symm
  refine ⟨?_, by rw [h2]; decide, by rw [h3]; rfl⟩
  unfold candidate
  rw [h2]
  exact congrArg (fun x => some (Instr.vstd x)) h1

theorem vldl (f : MV) : Statement (.vldl f) := by
  intro w h
  obtain ⟨h1, h2, h3⟩ := MV.coding f 0x36#6 w (Option.some.inj h).symm
  refine ⟨?_, by rw [h2]; decide, by rw [h3]; rfl⟩
  unfold candidate
  rw [h2]
  exact congrArg (fun x => some (Instr.vldl x)) h1

theorem vstl (f : MV) : Statement (.vstl f) := by
  intro w h
  obtain ⟨h1, h2, h3⟩ := MV.coding f 0x37#6 w (Option.some.inj h).symm
  refine ⟨?_, by rw [h2]; decide, by rw [h3]; rfl⟩
  unfold candidate
  rw [h2]
  exact congrArg (fun x => some (Instr.vstl x)) h1

theorem vldlb (f : MV) : Statement (.vldlb f) := by
  intro w h
  obtain ⟨h1, h2, h3⟩ := MV.coding f 0x38#6 w (Option.some.inj h).symm
  refine ⟨?_, by rw [h2]; decide, by rw [h3]; rfl⟩
  unfold candidate
  rw [h2]
  exact congrArg (fun x => some (Instr.vldlb x)) h1

theorem vstlb (f : MV) : Statement (.vstlb f) := by
  intro w h
  obtain ⟨h1, h2, h3⟩ := MV.coding f 0x39#6 w (Option.some.inj h).symm
  refine ⟨?_, by rw [h2]; decide, by rw [h3]; rfl⟩
  unfold candidate
  rw [h2]
  exact congrArg (fun x => some (Instr.vstlb x)) h1

theorem sld (f : MS) : Statement (.sld f) := by
  intro w h
  obtain ⟨h1, h2, h3, h4⟩ := MS.coding f 0x3A#6 0#1 w (Option.some.inj h).symm
  refine ⟨?_, by rw [h2]; decide, by rw [h3]; rfl⟩
  unfold candidate
  rw [h2]
  show candidate3A w = _
  unfold candidate3A
  rw [h4]
  exact congrArg (fun x => some (Instr.sld x)) h1

theorem sldacq (f : MS) : Statement (.sldacq f) := by
  intro w h
  obtain ⟨h1, h2, h3, h4⟩ := MS.coding f 0x3A#6 1#1 w (Option.some.inj h).symm
  refine ⟨?_, by rw [h2]; decide, by rw [h3]; rfl⟩
  unfold candidate
  rw [h2]
  show candidate3A w = _
  unfold candidate3A
  rw [h4]
  exact congrArg (fun x => some (Instr.sldacq x)) h1

theorem sst (f : MS) : Statement (.sst f) := by
  intro w h
  obtain ⟨h1, h2, h3, h4⟩ := MS.coding f 0x3B#6 0#1 w (Option.some.inj h).symm
  refine ⟨?_, by rw [h2]; decide, by rw [h3]; rfl⟩
  unfold candidate
  rw [h2]
  show candidate3B w = _
  unfold candidate3B
  rw [h4]
  exact congrArg (fun x => some (Instr.sst x)) h1

theorem sstrel (f : MS) : Statement (.sstrel f) := by
  intro w h
  obtain ⟨h1, h2, h3, h4⟩ := MS.coding f 0x3B#6 1#1 w (Option.some.inj h).symm
  refine ⟨?_, by rw [h2]; decide, by rw [h3]; rfl⟩
  unfold candidate
  rw [h2]
  show candidate3B w = _
  unfold candidate3B
  rw [h4]
  exact congrArg (fun x => some (Instr.sstrel x)) h1

theorem amoadd (f : AM) : Statement (.amoadd f) := by
  intro w h
  obtain ⟨h1, h2, h3, h4⟩ := AM.coding f 0x3C#6 0#3 w (Option.some.inj h).symm
  refine ⟨?_, by rw [h2]; decide, by rw [h3]; rfl⟩
  unfold candidate
  rw [h2]
  show candidate3C w = _
  unfold candidate3C
  rw [h4]
  exact congrArg (fun x => some (Instr.amoadd x)) h1

theorem amoand (f : AM) : Statement (.amoand f) := by
  intro w h
  obtain ⟨h1, h2, h3, h4⟩ := AM.coding f 0x3C#6 1#3 w (Option.some.inj h).symm
  refine ⟨?_, by rw [h2]; decide, by rw [h3]; rfl⟩
  unfold candidate
  rw [h2]
  show candidate3C w = _
  unfold candidate3C
  rw [h4]
  exact congrArg (fun x => some (Instr.amoand x)) h1

theorem amoor (f : AM) : Statement (.amoor f) := by
  intro w h
  obtain ⟨h1, h2, h3, h4⟩ := AM.coding f 0x3C#6 2#3 w (Option.some.inj h).symm
  refine ⟨?_, by rw [h2]; decide, by rw [h3]; rfl⟩
  unfold candidate
  rw [h2]
  show candidate3C w = _
  unfold candidate3C
  rw [h4]
  exact congrArg (fun x => some (Instr.amoor x)) h1

theorem amoxor (f : AM) : Statement (.amoxor f) := by
  intro w h
  obtain ⟨h1, h2, h3, h4⟩ := AM.coding f 0x3C#6 3#3 w (Option.some.inj h).symm
  refine ⟨?_, by rw [h2]; decide, by rw [h3]; rfl⟩
  unfold candidate
  rw [h2]
  show candidate3C w = _
  unfold candidate3C
  rw [h4]
  exact congrArg (fun x => some (Instr.amoxor x)) h1

theorem amomin (f : AM) : Statement (.amomin f) := by
  intro w h
  obtain ⟨h1, h2, h3, h4⟩ := AM.coding f 0x3C#6 4#3 w (Option.some.inj h).symm
  refine ⟨?_, by rw [h2]; decide, by rw [h3]; rfl⟩
  unfold candidate
  rw [h2]
  show candidate3C w = _
  unfold candidate3C
  rw [h4]
  exact congrArg (fun x => some (Instr.amomin x)) h1

theorem amomax (f : AM) : Statement (.amomax f) := by
  intro w h
  obtain ⟨h1, h2, h3, h4⟩ := AM.coding f 0x3C#6 5#3 w (Option.some.inj h).symm
  refine ⟨?_, by rw [h2]; decide, by rw [h3]; rfl⟩
  unfold candidate
  rw [h2]
  show candidate3C w = _
  unfold candidate3C
  rw [h4]
  exact congrArg (fun x => some (Instr.amomax x)) h1

theorem amoswp (f : AM) : Statement (.amoswp f) := by
  intro w h
  obtain ⟨h1, h2, h3, h4⟩ := AM.coding f 0x3C#6 6#3 w (Option.some.inj h).symm
  refine ⟨?_, by rw [h2]; decide, by rw [h3]; rfl⟩
  unfold candidate
  rw [h2]
  show candidate3C w = _
  unfold candidate3C
  rw [h4]
  exact congrArg (fun x => some (Instr.amoswp x)) h1

theorem amocas (f : AM) : Statement (.amocas f) := by
  intro w h
  obtain ⟨h1, h2, h3, h4⟩ := AM.coding f 0x3C#6 7#3 w (Option.some.inj h).symm
  refine ⟨?_, by rw [h2]; decide, by rw [h3]; rfl⟩
  unfold candidate
  rw [h2]
  show candidate3C w = _
  unfold candidate3C
  rw [h4]
  exact congrArg (fun x => some (Instr.amocas x)) h1

theorem cpref (f : CA) : Statement (.cpref f) := by
  intro w h
  obtain ⟨h1, h2, h3, h4⟩ := CA.coding f 0x3D#6 0#7 w (Option.some.inj h).symm
  refine ⟨?_, by rw [h2]; decide, by rw [h3]; rfl⟩
  unfold candidate
  rw [h2]
  show candidate3D w = _
  unfold candidate3D
  rw [h4]
  exact congrArg (fun x => some (Instr.cpref x)) h1

theorem cprefl2 (f : CA) : Statement (.cprefl2 f) := by
  intro w h
  obtain ⟨h1, h2, h3, h4⟩ := CA.coding f 0x3D#6 1#7 w (Option.some.inj h).symm
  refine ⟨?_, by rw [h2]; decide, by rw [h3]; rfl⟩
  unfold candidate
  rw [h2]
  show candidate3D w = _
  unfold candidate3D
  rw [h4]
  exact congrArg (fun x => some (Instr.cprefl2 x)) h1

theorem cflush (f : CA) : Statement (.cflush f) := by
  intro w h
  obtain ⟨h1, h2, h3, h4⟩ := CA.coding f 0x3D#6 2#7 w (Option.some.inj h).symm
  refine ⟨?_, by rw [h2]; decide, by rw [h3]; rfl⟩
  unfold candidate
  rw [h2]
  show candidate3D w = _
  unfold candidate3D
  rw [h4]
  exact congrArg (fun x => some (Instr.cflush x)) h1

theorem cinv (f : CA) : Statement (.cinv f) := by
  intro w h
  obtain ⟨h1, h2, h3, h4⟩ := CA.coding f 0x3D#6 3#7 w (Option.some.inj h).symm
  refine ⟨?_, by rw [h2]; decide, by rw [h3]; rfl⟩
  unfold candidate
  rw [h2]
  show candidate3D w = _
  unfold candidate3D
  rw [h4]
  exact congrArg (fun x => some (Instr.cinv x)) h1

theorem redadd (f : RD) : Statement (.redadd f) := by
  intro w h
  obtain ⟨h1, h2, h3, h4⟩ := RD.coding f 0x3E#6 0#1 w (Option.some.inj h).symm
  refine ⟨?_, by rw [h2]; decide, by rw [h3]; rfl⟩
  unfold candidate
  rw [h2]
  show candidate3E w = _
  unfold candidate3E
  rw [h4]
  exact congrArg (fun x => some (Instr.redadd x)) h1

theorem redadds (f : RD) : Statement (.redadds f) := by
  intro w h
  obtain ⟨h1, h2, h3, h4⟩ := RD.coding f 0x3E#6 1#1 w (Option.some.inj h).symm
  refine ⟨?_, by rw [h2]; decide, by rw [h3]; rfl⟩
  unfold candidate
  rw [h2]
  show candidate3E w = _
  unfold candidate3E
  rw [h4]
  exact congrArg (fun x => some (Instr.redadds x)) h1

theorem nop (f : SY) : Statement (.nop f) := by
  intro w h
  obtain ⟨h1, h2, h3, h4⟩ := SY.coding f 0x00#6 0#8 w (Option.some.inj h).symm
  refine ⟨?_, by rw [h2]; decide, by rw [h3]; rfl⟩
  unfold candidate
  rw [h2]
  show candidateSy w = _
  unfold candidateSy
  rw [h4]
  exact congrArg (fun x => some (Instr.nop x)) h1

theorem exit (f : SY) : Statement (.exit f) := by
  intro w h
  obtain ⟨h1, h2, h3, h4⟩ := SY.coding f 0x00#6 1#8 w (Option.some.inj h).symm
  refine ⟨?_, by rw [h2]; decide, by rw [h3]; rfl⟩
  unfold candidate
  rw [h2]
  show candidateSy w = _
  unfold candidateSy
  rw [h4]
  exact congrArg (fun x => some (Instr.exit x)) h1

theorem yield (f : SY) : Statement (.yield f) := by
  intro w h
  obtain ⟨h1, h2, h3, h4⟩ := SY.coding f 0x00#6 2#8 w (Option.some.inj h).symm
  refine ⟨?_, by rw [h2]; decide, by rw [h3]; rfl⟩
  unfold candidate
  rw [h2]
  show candidateSy w = _
  unfold candidateSy
  rw [h4]
  exact congrArg (fun x => some (Instr.yield x)) h1

theorem trap (f : SYI) : Statement (.trap f) := by
  intro w h
  obtain ⟨h1, h2, h3, h4⟩ := SYI.coding f 0x00#6 3#8 w (Option.some.inj h).symm
  refine ⟨?_, by rw [h2]; decide, by rw [h3]; rfl⟩
  unfold candidate
  rw [h2]
  show candidateSy w = _
  unfold candidateSy
  rw [h4]
  exact congrArg (fun x => some (Instr.trap x)) h1

theorem eret (f : SY) : Statement (.eret f) := by
  intro w h
  obtain ⟨h1, h2, h3, h4⟩ := SY.coding f 0x00#6 4#8 w (Option.some.inj h).symm
  refine ⟨?_, by rw [h2]; decide, by rw [h3]; rfl⟩
  unfold candidate
  rw [h2]
  show candidateSy w = _
  unfold candidateSy
  rw [h4]
  exact congrArg (fun x => some (Instr.eret x)) h1

theorem halt (f : SY) : Statement (.halt f) := by
  intro w h
  obtain ⟨h1, h2, h3, h4⟩ := SY.coding f 0x00#6 5#8 w (Option.some.inj h).symm
  refine ⟨?_, by rw [h2]; decide, by rw [h3]; rfl⟩
  unfold candidate
  rw [h2]
  show candidateSy w = _
  unfold candidateSy
  rw [h4]
  exact congrArg (fun x => some (Instr.halt x)) h1

theorem modei (f : SYI) : Statement (.modei f) := by
  intro w h
  obtain ⟨h1, h2, h3, h4⟩ := SYI.coding f 0x00#6 8#8 w (Option.some.inj h).symm
  refine ⟨?_, by rw [h2]; decide, by rw [h3]; rfl⟩
  unfold candidate
  rw [h2]
  show candidateSy w = _
  unfold candidateSy
  rw [h4]
  exact congrArg (fun x => some (Instr.modei x)) h1

theorem modew (f : SYS) : Statement (.modew f) := by
  intro w h
  obtain ⟨h1, h2, h3, h4⟩ := SYS.coding f 0x00#6 9#8 w (Option.some.inj h).symm
  refine ⟨?_, by rw [h2]; decide, by rw [h3]; rfl⟩
  unfold candidate
  rw [h2]
  show candidateSy w = _
  unfold candidateSy
  rw [h4]
  exact congrArg (fun x => some (Instr.modew x)) h1

theorem moder (f : SYS) : Statement (.moder f) := by
  intro w h
  obtain ⟨h1, h2, h3, h4⟩ := SYS.coding f 0x00#6 10#8 w (Option.some.inj h).symm
  refine ⟨?_, by rw [h2]; decide, by rw [h3]; rfl⟩
  unfold candidate
  rw [h2]
  show candidateSy w = _
  unfold candidateSy
  rw [h4]
  exact congrArg (fun x => some (Instr.moder x)) h1

theorem sysr (f : SYR) : Statement (.sysr f) := by
  intro w h
  obtain ⟨h1, h2, h3, h4⟩ := SYR.coding f 0x00#6 16#8 w (Option.some.inj h).symm
  refine ⟨?_, by rw [h2]; decide, by rw [h3]; rfl⟩
  unfold candidate
  rw [h2]
  show candidateSy w = _
  unfold candidateSy
  rw [h4]
  exact congrArg (fun x => some (Instr.sysr x)) h1

theorem sysw (f : SYR) : Statement (.sysw f) := by
  intro w h
  obtain ⟨h1, h2, h3, h4⟩ := SYR.coding f 0x00#6 17#8 w (Option.some.inj h).symm
  refine ⟨?_, by rw [h2]; decide, by rw [h3]; rfl⟩
  unfold candidate
  rw [h2]
  show candidateSy w = _
  unfold candidateSy
  rw [h4]
  exact congrArg (fun x => some (Instr.sysw x)) h1

theorem fence (f : SYF) : Statement (.fence f) := by
  intro w h
  obtain ⟨h1, h2, h3, h4⟩ := SYF.coding f 0x00#6 24#8 w (Option.some.inj h).symm
  refine ⟨?_, by rw [h2]; decide, by rw [h3]; rfl⟩
  unfold candidate
  rw [h2]
  show candidateSy w = _
  unfold candidateSy
  rw [h4]
  exact congrArg (fun x => some (Instr.fence x)) h1

theorem waitc (f : SYC) : Statement (.waitc f) := by
  intro w h
  obtain ⟨h1, h2, h3, h4⟩ := SYC.coding f 0x00#6 25#8 w (Option.some.inj h).symm
  refine ⟨?_, by rw [h2]; decide, by rw [h3]; rfl⟩
  unfold candidate
  rw [h2]
  show candidateSy w = _
  unfold candidateSy
  rw [h4]
  exact congrArg (fun x => some (Instr.waitc x)) h1

theorem rdc (f : SYC) : Statement (.rdc f) := by
  intro w h
  obtain ⟨h1, h2, h3, h4⟩ := SYC.coding f 0x00#6 26#8 w (Option.some.inj h).symm
  refine ⟨?_, by rw [h2]; decide, by rw [h3]; rfl⟩
  unfold candidate
  rw [h2]
  show candidateSy w = _
  unfold candidateSy
  rw [h4]
  exact congrArg (fun x => some (Instr.rdc x)) h1

theorem bararr (f : SYB) : Statement (.bararr f) := by
  intro w h
  obtain ⟨h1, h2, h3, h4⟩ := SYB.coding f 0x00#6 32#8 w (Option.some.inj h).symm
  refine ⟨?_, by rw [h2]; decide, by rw [h3]; rfl⟩
  unfold candidate
  rw [h2]
  show candidateSy w = _
  unfold candidateSy
  rw [h4]
  exact congrArg (fun x => some (Instr.bararr x)) h1

theorem barwait (f : SYB) : Statement (.barwait f) := by
  intro w h
  obtain ⟨h1, h2, h3, h4⟩ := SYB.coding f 0x00#6 33#8 w (Option.some.inj h).symm
  refine ⟨?_, by rw [h2]; decide, by rw [h3]; rfl⟩
  unfold candidate
  rw [h2]
  show candidateSy w = _
  unfold candidateSy
  rw [h4]
  exact congrArg (fun x => some (Instr.barwait x)) h1

theorem barsync (f : SYB) : Statement (.barsync f) := by
  intro w h
  obtain ⟨h1, h2, h3, h4⟩ := SYB.coding f 0x00#6 34#8 w (Option.some.inj h).symm
  refine ⟨?_, by rw [h2]; decide, by rw [h3]; rfl⟩
  unfold candidate
  rw [h2]
  show candidateSy w = _
  unfold candidateSy
  rw [h4]
  exact congrArg (fun x => some (Instr.barsync x)) h1

theorem bartest (f : SYT) : Statement (.bartest f) := by
  intro w h
  obtain ⟨h1, h2, h3, h4⟩ := SYT.coding f 0x00#6 35#8 w (Option.some.inj h).symm
  refine ⟨?_, by rw [h2]; decide, by rw [h3]; rfl⟩
  unfold candidate
  rw [h2]
  show candidateSy w = _
  unfold candidateSy
  rw [h4]
  exact congrArg (fun x => some (Instr.bartest x)) h1

theorem phadv (f : SY) : Statement (.phadv f) := by
  intro w h
  obtain ⟨h1, h2, h3, h4⟩ := SY.coding f 0x00#6 36#8 w (Option.some.inj h).symm
  refine ⟨?_, by rw [h2]; decide, by rw [h3]; rfl⟩
  unfold candidate
  rw [h2]
  show candidateSy w = _
  unfold candidateSy
  rw [h4]
  exact congrArg (fun x => some (Instr.phadv x)) h1

theorem txbegin (f : SY) : Statement (.txbegin f) := by
  intro w h
  obtain ⟨h1, h2, h3, h4⟩ := SY.coding f 0x00#6 40#8 w (Option.some.inj h).symm
  refine ⟨?_, by rw [h2]; decide, by rw [h3]; rfl⟩
  unfold candidate
  rw [h2]
  show candidateSy w = _
  unfold candidateSy
  rw [h4]
  exact congrArg (fun x => some (Instr.txbegin x)) h1

theorem txend (f : SYS) : Statement (.txend f) := by
  intro w h
  obtain ⟨h1, h2, h3, h4⟩ := SYS.coding f 0x00#6 41#8 w (Option.some.inj h).symm
  refine ⟨?_, by rw [h2]; decide, by rw [h3]; rfl⟩
  unfold candidate
  rw [h2]
  show candidateSy w = _
  unfold candidateSy
  rw [h4]
  exact congrArg (fun x => some (Instr.txend x)) h1

theorem txabort (f : SYA) : Statement (.txabort f) := by
  intro w h
  obtain ⟨h1, h2, h3, h4⟩ := SYA.coding f 0x00#6 42#8 w (Option.some.inj h).symm
  refine ⟨?_, by rw [h2]; decide, by rw [h3]; rfl⟩
  unfold candidate
  rw [h2]
  show candidateSy w = _
  unfold candidateSy
  rw [h4]
  exact congrArg (fun x => some (Instr.txabort x)) h1

theorem txstat (f : SYS) : Statement (.txstat f) := by
  intro w h
  obtain ⟨h1, h2, h3, h4⟩ := SYS.coding f 0x00#6 43#8 w (Option.some.inj h).symm
  refine ⟨?_, by rw [h2]; decide, by rw [h3]; rfl⟩
  unfold candidate
  rw [h2]
  show candidateSy w = _
  unfold candidateSy
  rw [h4]
  exact congrArg (fun x => some (Instr.txstat x)) h1

theorem rmap (f : SYM) : Statement (.rmap f) := by
  intro w h
  obtain ⟨h1, h2, h3, h4⟩ := SYM.coding f 0x00#6 48#8 w (Option.some.inj h).symm
  refine ⟨?_, by rw [h2]; decide, by rw [h3]; rfl⟩
  unfold candidate
  rw [h2]
  show candidateSy w = _
  unfold candidateSy
  rw [h4]
  exact congrArg (fun x => some (Instr.rmap x)) h1

theorem reservedEncoding (word : W32) : Statement (.reservedEncoding word) := by
  intro w h; exact absurd h (by simp [encode])

theorem issueSelection (core : BitVec 8) : Statement (.issueSelection core) := by
  intro w h; exact absurd h (by simp [encode])

theorem checkerCacheFill (core : BitVec 8) : Statement (.checkerCacheFill core) := by
  intro w h; exact absurd h (by simp [encode])

theorem storeQueueDrain (core : BitVec 8) : Statement (.storeQueueDrain core) := by
  intro w h; exact absurd h (by simp [encode])

theorem marginWindow (core : BitVec 8) : Statement (.marginWindow core) := by
  intro w h; exact absurd h (by simp [encode])

theorem deadlockBreaker (core : BitVec 8) : Statement (.deadlockBreaker core) := by
  intro w h; exact absurd h (by simp [encode])

theorem trapEntry (team : Nat) : Statement (.trapEntry team) := by
  intro w h; exact absurd h (by simp [encode])

theorem preemptionRequest (gang : Nat) (reason : PreemptReason) : Statement (.preemptionRequest gang reason) := by
  intro w h; exact absurd h (by simp [encode])

theorem preemptionEntry (gang : Nat) : Statement (.preemptionEntry gang) := by
  intro w h; exact absurd h (by simp [encode])

theorem forcedPreemption (gang : Nat) : Statement (.forcedPreemption gang) := by
  intro w h; exact absurd h (by simp [encode])

theorem systemModeOverrun (team : Nat) : Statement (.systemModeOverrun team) := by
  intro w h; exact absurd h (by simp [encode])

theorem restoreEntry (team : Nat) : Statement (.restoreEntry team) := by
  intro w h; exact absurd h (by simp [encode])

theorem qtail (q : BitVec 6) (value : W64) : Statement (.qtail q value) := by
  intro w h; exact absurd h (by simp [encode])

theorem packetAcceptance (q : BitVec 6) : Statement (.packetAcceptance q) := by
  intro w h; exact absurd h (by simp [encode])

theorem teamStart (gang : Nat) : Statement (.teamStart gang) := by
  intro w h; exact absurd h (by simp [encode])

theorem teamEnd (team : Nat) : Statement (.teamEnd team) := by
  intro w h; exact absurd h (by simp [encode])

theorem gridRetirement (seq : Nat) : Statement (.gridRetirement seq) := by
  intro w h; exact absurd h (by simp [encode])

theorem teamStop (team : Nat) : Statement (.teamStop team) := by
  intro w h; exact absurd h (by simp [encode])

theorem preempt (value : W64) : Statement (.preempt value) := by
  intro w h; exact absurd h (by simp [encode])

theorem vaultReport (die : BitVec 2) (vault : BitVec 6) (layers : List Int) : Statement (.vaultReport die vault layers) := by
  intro w h; exact absurd h (by simp [encode])

theorem migrationScan (die : BitVec 2) : Statement (.migrationScan die) := by
  intro w h; exact absurd h (by simp [encode])

theorem priorityPreemption (die : BitVec 2) : Statement (.priorityPreemption die) := by
  intro w h; exact absurd h (by simp [encode])

theorem reservationGrant (cluster : BitVec 6) : Statement (.reservationGrant cluster) := by
  intro w h; exact absurd h (by simp [encode])

theorem starvation (cluster : BitVec 6) (op : Nat) : Statement (.starvation cluster op) := by
  intro w h; exact absurd h (by simp [encode])

theorem gatherDone (cluster : BitVec 6) (op : Nat) : Statement (.gatherDone cluster op) := by
  intro w h; exact absurd h (by simp [encode])

theorem subarrayWake (cluster : BitVec 6) (op : Nat) : Statement (.subarrayWake cluster op) := by
  intro w h; exact absurd h (by simp [encode])

theorem subarrayGating (core : BitVec 8) : Statement (.subarrayGating core) := by
  intro w h; exact absurd h (by simp [encode])

theorem taperVerdict (cluster : BitVec 6) (op : Nat) (claims : List SumError) (residueFired : Bool) : Statement (.taperVerdict cluster op claims residueFired) := by
  intro w h; exact absurd h (by simp [encode])

theorem copyExecution (cluster : BitVec 6) : Statement (.copyExecution cluster) := by
  intro w h; exact absurd h (by simp [encode])

theorem engineCompletion (cluster : BitVec 6) (op : Nat) : Statement (.engineCompletion cluster op) := by
  intro w h; exact absurd h (by simp [encode])

theorem phaseRelease (team : Nat) : Statement (.phaseRelease team) := by
  intro w h; exact absurd h (by simp [encode])

theorem publishCompletion (team : Nat) : Statement (.publishCompletion team) := by
  intro w h; exact absurd h (by simp [encode])

theorem windowWithdrawal (gang : Nat) (base : Nat) : Statement (.windowWithdrawal gang base) := by
  intro w h; exact absurd h (by simp [encode])

theorem txCommit (cluster : BitVec 6) : Statement (.txCommit cluster) := by
  intro w h; exact absurd h (by simp [encode])

theorem amoPerform (n : Nat) : Statement (.amoPerform n) := by
  intro w h; exact absurd h (by simp [encode])

theorem detBoundary (seq : Nat) : Statement (.detBoundary seq) := by
  intro w h; exact absurd h (by simp [encode])

theorem tlbictl (value : W64) : Statement (.tlbictl value) := by
  intro w h; exact absurd h (by simp [encode])

theorem asidtab (value : W64) : Statement (.asidtab value) := by
  intro w h; exact absurd h (by simp [encode])

theorem fqresp (value : W64) : Statement (.fqresp value) := by
  intro w h; exact absurd h (by simp [encode])

theorem softError (site : ErrorSite) (corrected : Bool) : Statement (.softError site corrected) := by
  intro w h; exact absurd h (by simp [encode])

theorem phaseFailure (die : BitVec 2) (quadrant : BitVec 2) : Statement (.phaseFailure die quadrant) := by
  intro w h; exact absurd h (by simp [encode])

theorem qcapUpdate (die : BitVec 2) (watts : BitVec 16) (floor : Bool) : Statement (.qcapUpdate die watts floor) := by
  intro w h; exact absurd h (by simp [encode])

theorem qcapRise (die : BitVec 2) : Statement (.qcapRise die) := by
  intro w h; exact absurd h (by simp [encode])

theorem currentGrant (cluster : BitVec 6) (work : CurrentWork) : Statement (.currentGrant cluster work) := by
  intro w h; exact absurd h (by simp [encode])

theorem moduleReset (first : StageImage) (later : List StageImage) : Statement (.moduleReset first later) := by
  intro w h; exact absurd h (by simp [encode])

theorem hostApertureAccess (bulk : Bool) (offset : Nat) (op : HostOp) : Statement (.hostApertureAccess bulk offset op) := by
  intro w h; exact absurd h (by simp [encode])

theorem registerWrite (offset : Nat) (bytes : List Byte) : Statement (.registerWrite offset bytes) := by
  intro w h; exact absurd h (by simp [encode])

theorem attctlGo (value : W64) : Statement (.attctlGo value) := by
  intro w h; exact absurd h (by simp [encode])

theorem attestationDone : Statement (.attestationDone) := by
  intro w h; exact absurd h (by simp [encode])

theorem telemetryUpdate (samples : List Sample) : Statement (.telemetryUpdate samples) := by
  intro w h; exact absurd h (by simp [encode])

theorem modulePowerCap (watts : Nat) : Statement (.modulePowerCap watts) := by
  intro w h; exact absurd h (by simp [encode])

theorem capEnforcement (inputWatts : Nat) : Statement (.capEnforcement inputWatts) := by
  intro w h; exact absurd h (by simp [encode])

theorem destinationAcceptance (t : Transit) (crc : CrcResult) : Statement (.destinationAcceptance t crc) := by
  intro w h; exact absurd h (by simp [encode])

theorem peerInvalidation (region : Nat) : Statement (.peerInvalidation region) := by
  intro w h; exact absurd h (by simp [encode])

theorem invalidationAck (plane : BitVec 6) (region : Nat) : Statement (.invalidationAck plane region) := by
  intro w h; exact absurd h (by simp [encode])

theorem fmodWrite (value : W64) : Statement (.fmodWrite value) := by
  intro w h; exact absurd h (by simp [encode])

theorem routeWrite (m : BitVec 12) (value : W64) : Statement (.routeWrite m value) := by
  intro w h; exact absurd h (by simp [encode])

theorem noUsablePlaneTimeout (m : BitVec 12) : Statement (.noUsablePlaneTimeout m) := by
  intro w h; exact absurd h (by simp [encode])

theorem deathNotice (m : BitVec 12) (boundary : BitVec 32) : Statement (.deathNotice m boundary) := by
  intro w h; exact absurd h (by simp [encode])

theorem boundaryMarker (e : BitVec 32) : Statement (.boundaryMarker e) := by
  intro w h; exact absurd h (by simp [encode])

theorem layerRailFault (die : BitVec 2) (layer : BitVec 3) (millivolts : BitVec 32) : Statement (.layerRailFault die layer millivolts) := by
  intro w h; exact absurd h (by simp [encode])

theorem burstExpiry (cluster : BitVec 6) (work : CurrentWork) (renew : Bool) : Statement (.burstExpiry cluster work renew) := by
  intro w h; exact absurd h (by simp [encode])

theorem meterWindow (port : BitVec 6) : Statement (.meterWindow port) := by
  intro w h; exact absurd h (by simp [encode])

theorem marginPublish (port : BitVec 6) (margin0 : BitVec 8) (margin1 : BitVec 8) : Statement (.marginPublish port margin0 margin1) := by
  intro w h; exact absurd h (by simp [encode])

theorem marginWarning (port : BitVec 6) : Statement (.marginWarning port) := by
  intro w h; exact absurd h (by simp [encode])

theorem laneRemoval (port : BitVec 6) (lane1 : Bool) : Statement (.laneRemoval port lane1) := by
  intro w h; exact absurd h (by simp [encode])

theorem laneRetrain (port : BitVec 6) (lane1 : Bool) : Statement (.laneRetrain port lane1) := by
  intro w h; exact absurd h (by simp [encode])

theorem laneReturn (port : BitVec 6) (lane1 : Bool) : Statement (.laneReturn port lane1) := by
  intro w h; exact absurd h (by simp [encode])

theorem switchRemovalReport (plane : BitVec 6) : Statement (.switchRemovalReport plane) := by
  intro w h; exact absurd h (by simp [encode])

theorem translationWalk : Statement (.translationWalk) := by
  intro w h; exact absurd h (by simp [encode])

theorem dependenceEvaluation : Statement (.dependenceEvaluation) := by
  intro w h; exact absurd h (by simp [encode])

theorem selection : Statement (.selection) := by
  intro w h; exact absurd h (by simp [encode])

theorem effectiveLevelAging : Statement (.effectiveLevelAging) := by
  intro w h; exact absurd h (by simp [encode])

theorem gangOffer : Statement (.gangOffer) := by
  intro w h; exact absurd h (by simp [encode])

theorem gangReoffer : Statement (.gangReoffer) := by
  intro w h; exact absurd h (by simp [encode])

theorem tallowTick : Statement (.tallowTick) := by
  intro w h; exact absurd h (by simp [encode])

theorem refreshCharge : Statement (.refreshCharge) := by
  intro w h; exact absurd h (by simp [encode])

theorem tlbInvalidationDone : Statement (.tlbInvalidationDone) := by
  intro w h; exact absurd h (by simp [encode])

theorem hostLinkLoss : Statement (.hostLinkLoss) := by
  intro w h; exact absurd h (by simp [encode])

theorem heartbeat : Statement (.heartbeat) := by
  intro w h; exact absurd h (by simp [encode])

theorem boundaryAck : Statement (.boundaryAck) := by
  intro w h; exact absurd h (by simp [encode])

end

end Sys2Proof.Laws.Coding
end

