-- ==== Sys2Proof/Tests/Slice0.lean ====
section
/-! SUPPORT. The model's own tests: the words of spec/opcode_table.json decode to their instructions, ill-formed terms
and words are refused, single instructions give the values that the spec's tables give, and for every statement with
hypotheses a concrete state meets them. -/

namespace Sys2Proof.Tests

open Sys2Proof Sys2Proof.Machine

section
set_option Elab.async false

/-! ### A small machine -/

/-- One team on core 0, selected, in the gang and grid of `withFetchWord`. -/
def on (t : Team) : State :=
  { State.reset with cur := some 0, teams := [(0, t)], gangs := [(0, stagedGang)], grids := [(0, stagedGrid)] }

/-- The staged team with scalar registers set: register number and value. -/
def withRegs (l : List (Nat × W64)) : Team :=
  { stagedTeam with s := l.foldl (fun v e => v.setIfInBounds e.1 e.2) (Vector.replicate 64 0) }

/-- The same with vector registers of word 0: number and the content of every lane. -/
def withRows (l : List (Nat × (Nat → W32))) : Team :=
  { stagedTeam with rows := l.map fun e => (rowKey e.1 0, Vector.ofFn fun i : Fin 32 => e.2 i) }

/-- What an instruction answers for the team. -/
def after (i : Instr) (s : State) : Option Team :=
  match exec i s with
  | .next s' => s'.team 0
  | _ => none

/-- When the team of `on t` can issue. -/
theorem can_issue (t : Team) (uses : List Nat) (h : t.mayIssue = true ∧ t.dueReport = none ∧
    t.pass < t.words ∧ uses.any (t.busy.contains ·) = false) : (on t).CanIssueScalar 0 t uses :=
  ⟨⟨rfl, rfl, h.1, h.2.1, h.2.2.2, rfl⟩, h.2.2.1, rfl⟩

theorem staged_can_issue (uses : List Nat) : (on stagedTeam).CanIssueScalar 0 stagedTeam uses :=
  ⟨⟨rfl, rfl, rfl, rfl, by simp [stagedTeam], rfl⟩, by decide, rfl⟩

theorem regs_can_issue (l : List (Nat × W64)) (uses : List Nat) :
    (on (withRegs l)).CanIssueScalar 0 (withRegs l) uses :=
  ⟨⟨rfl, rfl, rfl, rfl, by simp [withRegs, stagedTeam], rfl⟩, by simp [withRegs, stagedTeam, Team.words], rfl⟩
/-! ### Encodings: words written from the opcode table's match values and field places (spec/02, R47 to R64) -/

theorem test_decode_fields_d_a_b : ∀ e ∈ ([
    (0x415735B0, .sadd ⟨1, 43, 77, 54⟩),
    (0x415735B1, .ssub ⟨1, 43, 77, 54⟩),
    (0x415735B2, .smul ⟨1, 43, 77, 54⟩),
    (0x415735B3, .smulh ⟨1, 43, 77, 54⟩),
    (0x415735B4, .sand ⟨1, 43, 77, 54⟩),
    (0x415735B5, .sor ⟨1, 43, 77, 54⟩),
    (0x415735B6, .sxor ⟨1, 43, 77, 54⟩),
    (0x415735B7, .sandn ⟨1, 43, 77, 54⟩),
    (0x425735B0, .sshl ⟨1, 43, 77, 54⟩),
    (0x425735B1, .sshr ⟨1, 43, 77, 54⟩),
    (0x425735B2, .ssar ⟨1, 43, 77, 54⟩),
    (0x425735B3, .srot ⟨1, 43, 77, 54⟩),
    (0x425735B4, .smin ⟨1, 43, 77, 54⟩),
    (0x425735B5, .smax ⟨1, 43, 77, 54⟩),
    (0x425735B6, .sminu ⟨1, 43, 77, 54⟩),
    (0x425735B7, .smaxu ⟨1, 43, 77, 54⟩)] : List (Nat × Instr)),
    decodeTableWord 32 e.1 = some e.2 := by decide +kernel

theorem test_decode_fields_d_a_b_2 : ∀ e ∈ ([
    (0x435735B0, .slea4 ⟨1, 43, 77, 54⟩),
    (0x435735B1, .slea8 ⟨1, 43, 77, 54⟩),
    (0x435735B2, .smulhu ⟨1, 43, 77, 54⟩),
    (0x4D5735B0, .mand ⟨1, 43, 77, 54⟩),
    (0x4D5735B1, .mandn ⟨1, 43, 77, 54⟩),
    (0x4D5735B2, .mor ⟨1, 43, 77, 54⟩),
    (0x4D5735B3, .mxor ⟨1, 43, 77, 54⟩)] : List (Nat × Instr)),
    decodeTableWord 32 e.1 = some e.2 := by decide +kernel

theorem test_decode_fields_d_a_i : ∀ e ∈ ([
    (0x445736B9, .saddi ⟨1, 43, 77, 697⟩),
    (0x455736B9, .sandi ⟨1, 43, 77, 697⟩)] : List (Nat × Instr)),
    decodeTableWord 32 e.1 = some e.2 := by decide +kernel

theorem test_decode_fields_d_a_i_2 : ∀ e ∈ ([
    (0x46573439, .sshli ⟨1, 43, 77, 57⟩),
    (0x47573439, .sshri ⟨1, 43, 77, 57⟩)] : List (Nat × Instr)),
    decodeTableWord 32 e.1 = some e.2 := by decide +kernel

theorem test_decode_fields_d_i : ∀ e ∈ ([
    (0x4857A6B9, .smovi ⟨1, 43, 108217⟩),
    (0x4957A6B9, .sseth ⟨1, 43, 108217⟩),
    (0x4A57A6B9, .ssett ⟨1, 43, 108217⟩),
    (0x6957A6B9, .vmovi ⟨1, 43, 108217⟩)] : List (Nat × Instr)),
    decodeTableWord 32 e.1 = some e.2 := by decide +kernel

theorem test_decode_fields_d_a_b_c : ∀ e ∈ ([
    (0x4B5735B5, .scmp ⟨1, 43, 77, 54, 5⟩),
    (0x605735B5, .vcmp ⟨1, 43, 77, 54, 5⟩)] : List (Nat × Instr)),
    decodeTableWord 32 e.1 = some e.2 := by decide +kernel

theorem test_decode_fields_d_a_l : ∀ e ∈ ([
    (0x4C573400, .smov ⟨1, 43, 77, false⟩),
    (0x4C573410, .snot ⟨1, 43, 77, false⟩),
    (0x4C573420, .sneg ⟨1, 43, 77, false⟩),
    (0x4C573430, .spopc ⟨1, 43, 77, false⟩),
    (0x4C573440, .sclz ⟨1, 43, 77, false⟩),
    (0x4C573450, .sctz ⟨1, 43, 77, false⟩),
    (0x4C573460, .sbrev ⟨1, 43, 77, false⟩),
    (0x4C573470, .ssext32 ⟨1, 43, 77, false⟩),
    (0x4C573480, .szext32 ⟨1, 43, 77, false⟩),
    (0x4C573490, .sabs ⟨1, 43, 77, false⟩),
    (0x4E573400, .mnot ⟨1, 43, 77, false⟩),
    (0x4E573410, .mpopc ⟨1, 43, 77, false⟩),
    (0x4E573420, .mffs ⟨1, 43, 77, false⟩),
    (0x4E573430, .mset ⟨1, 43, 77, false⟩),
    (0x4E573440, .mclr ⟨1, 43, 77, false⟩),
    (0x4E573450, .mcpy ⟨1, 43, 77, false⟩)] : List (Nat × Instr)),
    decodeTableWord 32 e.1 = some e.2 := by decide +kernel

theorem test_decode_fields_d_a_l_2 : ∀ e ∈ ([
    (0x55573400, .jmpr ⟨1, 43, 77, false⟩),
    (0x55573410, .callr ⟨1, 43, 77, false⟩),
    (0x55573420, .ret ⟨1, 43, 77, false⟩),
    (0x62573408, .vmov ⟨1, 43, 77, true⟩),
    (0x62573418, .vneg ⟨1, 43, 77, true⟩),
    (0x62573428, .vabs ⟨1, 43, 77, true⟩),
    (0x62573438, .vnot ⟨1, 43, 77, true⟩),
    (0x62573448, .vpopc ⟨1, 43, 77, true⟩),
    (0x62573458, .vclz ⟨1, 43, 77, true⟩),
    (0x62573468, .vflr ⟨1, 43, 77, true⟩),
    (0x62573478, .vceil ⟨1, 43, 77, true⟩),
    (0x62573488, .vtrnc ⟨1, 43, 77, true⟩),
    (0x62573498, .vrnd ⟨1, 43, 77, true⟩),
    (0x625734A0, .vlane ⟨1, 43, 77, false⟩),
    (0x625734B8, .vbrev ⟨1, 43, 77, true⟩),
    (0x625734C8, .vclass ⟨1, 43, 77, true⟩)] : List (Nat × Instr)),
    decodeTableWord 32 e.1 = some e.2 := by decide +kernel

theorem test_decode_fields_d_a_l_3 : ∀ e ∈ ([
    (0x67573408, .vredwAdd ⟨1, 43, 77, true⟩),
    (0x67573418, .vredwMin ⟨1, 43, 77, true⟩),
    (0x67573428, .vredwMax ⟨1, 43, 77, true⟩),
    (0x67573438, .vredwAnd ⟨1, 43, 77, true⟩),
    (0x67573448, .vredwOr ⟨1, 43, 77, true⟩),
    (0x67573458, .vredwXor ⟨1, 43, 77, true⟩)] : List (Nat × Instr)),
    decodeTableWord 32 e.1 = some e.2 := by decide +kernel

theorem test_decode_fields_s_o : ∀ e ∈ ([
    (0x4F66A5C3, .br ⟨1, 25, 173507⟩),
    (0x5066A5C3, .brz ⟨1, 25, 173507⟩),
    (0x5166A5C3, .brnz ⟨1, 25, 173507⟩),
    (0x5266A5C3, .brzm ⟨1, 25, 173507⟩),
    (0x5366A5C3, .brnzm ⟨1, 25, 173507⟩),
    (0x5466A5C3, .call ⟨1, 25, 173507⟩)] : List (Nat × Instr)),
    decodeTableWord 32 e.1 = some e.2 := by decide +kernel

theorem test_decode_fields_a_b_c_h : ∀ e ∈ ([
    (0x56376149, .mma ⟨1, 13, 54, 5, 9⟩),
    (0x56376159, .mmag ⟨1, 13, 54, 5, 9⟩),
    (0x56376169, .mzero ⟨1, 13, 54, 5, 9⟩),
    (0x56376179, .mldacc ⟨1, 13, 54, 5, 9⟩),
    (0x57376149, .mdrain ⟨1, 13, 54, 5, 9⟩),
    (0x57376159, .mdraina ⟨1, 13, 54, 5, 9⟩),
    (0x57376169, .mqnt ⟨1, 13, 54, 5, 9⟩),
    (0x57376179, .mdrainb ⟨1, 13, 54, 5, 9⟩),
    (0x6C376149, .cpy ⟨1, 13, 54, 5, 9⟩),
    (0x6C376159, .cpyq ⟨1, 13, 54, 5, 9⟩),
    (0x6C376169, .cpyp ⟨1, 13, 54, 5, 9⟩),
    (0x6D376149, .launch ⟨1, 13, 54, 5, 9⟩),
    (0x6D376159, .publish ⟨1, 13, 54, 5, 9⟩),
    (0x6D376169, .unpub ⟨1, 13, 54, 5, 9⟩)] : List (Nat × Instr)),
    decodeTableWord 32 e.1 = some e.2 := by decide +kernel

theorem test_decode_fields_d_a_b_l_m : ∀ e ∈ ([
    (0x585735B4, .vadd ⟨1, 43, 77, 54, true, false⟩),
    (0x585735B5, .vsub ⟨1, 43, 77, 54, true, false⟩),
    (0x595735B4, .vmul ⟨1, 43, 77, 54, true, false⟩),
    (0x595735B5, .vmulh ⟨1, 43, 77, 54, true, false⟩),
    (0x5A5735B4, .vfma ⟨1, 43, 77, 54, true, false⟩),
    (0x5A5735B5, .vfms ⟨1, 43, 77, 54, true, false⟩),
    (0x5B5735B4, .vmin ⟨1, 43, 77, 54, true, false⟩),
    (0x5B5735B5, .vmax ⟨1, 43, 77, 54, true, false⟩),
    (0x5C5735B4, .vand ⟨1, 43, 77, 54, true, false⟩),
    (0x5C5735B5, .vor ⟨1, 43, 77, 54, true, false⟩),
    (0x5D5735B4, .vxor ⟨1, 43, 77, 54, true, false⟩),
    (0x5D5735B5, .vandn ⟨1, 43, 77, 54, true, false⟩),
    (0x5E5735B4, .vshl ⟨1, 43, 77, 54, true, false⟩),
    (0x5E5735B5, .vshr ⟨1, 43, 77, 54, true, false⟩),
    (0x5F5735B4, .vsar ⟨1, 43, 77, 54, true, false⟩),
    (0x5F5735B5, .vrot ⟨1, 43, 77, 54, true, false⟩)] : List (Nat × Instr)),
    decodeTableWord 32 e.1 = some e.2 := by decide +kernel

theorem test_decode_fields_d_a_b_l_m_2 : ∀ e ∈ ([
    (0x615735B4, .vsel ⟨1, 43, 77, 54, true, false⟩),
    (0x615735B5, .vflk ⟨1, 43, 77, 54, true, false⟩),
    (0x655735B0, .vmovs ⟨1, 43, 77, 54, false, false⟩),
    (0x655735B5, .vgets ⟨1, 43, 77, 54, true, false⟩),
    (0x665735B4, .vshfl ⟨1, 43, 77, 54, true, false⟩),
    (0x665735B5, .vbfly ⟨1, 43, 77, 54, true, false⟩)] : List (Nat × Instr)),
    decodeTableWord 32 e.1 = some e.2 := by decide +kernel

theorem test_decode_fields_d_a_l_h : ∀ e ∈ ([
    (0x63573419, .vdiv ⟨1, 43, 77, true, 9⟩),
    (0x63573439, .vrcp ⟨1, 43, 77, true, 9⟩),
    (0x63573459, .vsqrt ⟨1, 43, 77, true, 9⟩),
    (0x63573479, .vrsq ⟨1, 43, 77, true, 9⟩),
    (0x63573499, .vexp2 ⟨1, 43, 77, true, 9⟩),
    (0x635734B9, .vlog2 ⟨1, 43, 77, true, 9⟩),
    (0x635734D9, .vsin ⟨1, 43, 77, true, 9⟩),
    (0x635734F9, .vcos ⟨1, 43, 77, true, 9⟩),
    (0x63573519, .vtanh ⟨1, 43, 77, true, 9⟩),
    (0x63573539, .vsigm ⟨1, 43, 77, true, 9⟩),
    (0x63573559, .vexp ⟨1, 43, 77, true, 9⟩),
    (0x63573579, .vlog ⟨1, 43, 77, true, 9⟩)] : List (Nat × Instr)),
    decodeTableWord 32 e.1 = some e.2 := by decide +kernel

theorem test_decode_fields_d_a_s_t_l : ∀ e ∈ ([
    (0x64573568, .vcvt ⟨1, 43, 77, true, 6, true⟩)] : List (Nat × Instr)),
    decodeTableWord 32 e.1 = some e.2 := by decide +kernel

theorem test_decode_fields_d_a_i_l : ∀ e ∈ ([
    (0x68573573, .vaddi ⟨1, 43, 77, 185, true⟩)] : List (Nat × Instr)),
    decodeTableWord 32 e.1 = some e.2 := by decide +kernel

theorem test_decode_fields_d_a_b_f : ∀ e ∈ ([
    (0x6A5735B2, .vqnt ⟨1, 43, 77, 54, 2⟩),
    (0x6B5735B2, .vdqnt ⟨1, 43, 77, 54, 2⟩)] : List (Nat × Instr)),
    decodeTableWord 32 e.1 = some e.2 := by decide +kernel

theorem test_decode_fields_d_a_s_h : ∀ e ∈ ([
    (0x6E573599, .vld ⟨1, 43, 77, 25, 9⟩),
    (0x6F573599, .vldb ⟨1, 43, 77, 25, 9⟩),
    (0x70573599, .vldh ⟨1, 43, 77, 25, 9⟩),
    (0x71553599, .vldd ⟨1, 42, 77, 25, 9⟩),
    (0x72573599, .vst ⟨1, 43, 77, 25, 9⟩),
    (0x73573599, .vstb ⟨1, 43, 77, 25, 9⟩),
    (0x74573599, .vsth ⟨1, 43, 77, 25, 9⟩),
    (0x75553599, .vstd ⟨1, 42, 77, 25, 9⟩),
    (0x76573599, .vldl ⟨1, 43, 77, 25, 9⟩),
    (0x77573599, .vstl ⟨1, 43, 77, 25, 9⟩),
    (0x78573599, .vldlb ⟨1, 43, 77, 25, 9⟩),
    (0x79573599, .vstlb ⟨1, 43, 77, 25, 9⟩)] : List (Nat × Instr)),
    decodeTableWord 32 e.1 = some e.2 := by decide +kernel

theorem test_decode_fields_d_a_s_h_2 : ∀ e ∈ ([
    (0x7A573599, .sld ⟨1, 43, 77, 25, 9⟩),
    (0x7AD73599, .sldacq ⟨1, 43, 77, 25, 9⟩),
    (0x7B573599, .sst ⟨1, 43, 77, 25, 9⟩),
    (0x7BD73599, .sstrel ⟨1, 43, 77, 25, 9⟩)] : List (Nat × Instr)),
    decodeTableWord 32 e.1 = some e.2 := by decide +kernel

theorem test_decode_fields_d_s_q_r_h : ∀ e ∈ ([
    (0x7CAD9109, .amoadd ⟨1, 43, 25, true, false, 9⟩),
    (0x7CAD9309, .amoand ⟨1, 43, 25, true, false, 9⟩),
    (0x7CAD9509, .amoor ⟨1, 43, 25, true, false, 9⟩),
    (0x7CAD9709, .amoxor ⟨1, 43, 25, true, false, 9⟩),
    (0x7CAD9909, .amomin ⟨1, 43, 25, true, false, 9⟩),
    (0x7CAD9B09, .amomax ⟨1, 43, 25, true, false, 9⟩),
    (0x7CAD9D09, .amoswp ⟨1, 43, 25, true, false, 9⟩),
    (0x7CA99F09, .amocas ⟨1, 42, 25, true, false, 9⟩)] : List (Nat × Instr)),
    decodeTableWord 32 e.1 = some e.2 := by decide +kernel

theorem test_decode_fields_a_s_h : ∀ e ∈ ([
    (0x7D013599, .cpref ⟨1, 77, 25, 9⟩),
    (0x7D033599, .cprefl2 ⟨1, 77, 25, 9⟩),
    (0x7D053599, .cflush ⟨1, 77, 25, 9⟩),
    (0x7D073599, .cinv ⟨1, 77, 25, 9⟩)] : List (Nat × Instr)),
    decodeTableWord 32 e.1 = some e.2 := by decide +kernel

theorem test_decode_fields_d_t_s_h : ∀ e ∈ ([
    (0x7E560199, .redadd ⟨1, 43, false, 25, 9⟩),
    (0x7E560999, .redadds ⟨1, 43, false, 25, 9⟩)] : List (Nat × Instr)),
    decodeTableWord 32 e.1 = some e.2 := by decide +kernel

theorem test_decode_fields_bare : ∀ e ∈ ([
    (0x40000000, .nop ⟨1⟩),
    (0x40010000, .exit ⟨1⟩),
    (0x40020000, .yield ⟨1⟩),
    (0x40040000, .eret ⟨1⟩),
    (0x40050000, .halt ⟨1⟩),
    (0x40240000, .phadv ⟨1⟩),
    (0x40280000, .txbegin ⟨1⟩)] : List (Nat × Instr)),
    decodeTableWord 32 e.1 = some e.2 := by decide +kernel

theorem test_decode_fields_i : ∀ e ∈ ([
    (0x4003A6B9, .trap ⟨1, 42681⟩),
    (0x4008A6B9, .modei ⟨1, 42681⟩)] : List (Nat × Instr)),
    decodeTableWord 32 e.1 = some e.2 := by decide +kernel

theorem test_decode_fields_a : ∀ e ∈ ([
    (0x4009000D, .modew ⟨1, 13⟩)] : List (Nat × Instr)),
    decodeTableWord 32 e.1 = some e.2 := by decide +kernel

theorem test_decode_fields_d : ∀ e ∈ ([
    (0x400A002B, .moder ⟨1, 43⟩),
    (0x4029002B, .txend ⟨1, 43⟩),
    (0x402B002B, .txstat ⟨1, 43⟩)] : List (Nat × Instr)),
    decodeTableWord 32 e.1 = some e.2 := by decide +kernel

theorem test_decode_fields_d_n : ∀ e ∈ ([
    (0x4010AC11, .sysr ⟨1, 43, 17⟩)] : List (Nat × Instr)),
    decodeTableWord 32 e.1 = some e.2 := by decide +kernel

theorem test_decode_fields_a_n : ∀ e ∈ ([
    (0x40113411, .sysw ⟨1, 13, 17⟩)] : List (Nat × Instr)),
    decodeTableWord 32 e.1 = some e.2 := by decide +kernel

theorem test_decode_fields_k_o : ∀ e ∈ ([
    (0x40180013, .fence ⟨1, 2, 3⟩)] : List (Nat × Instr)),
    decodeTableWord 32 e.1 = some e.2 := by decide +kernel

theorem test_decode_fields_a_p : ∀ e ∈ ([
    (0x4019006E, .waitc ⟨1, 13, 6⟩)] : List (Nat × Instr)),
    decodeTableWord 32 e.1 = some e.2 := by decide +kernel

theorem test_decode_fields_d_p : ∀ e ∈ ([
    (0x401A015E, .rdc ⟨1, 43, 6⟩)] : List (Nat × Instr)),
    decodeTableWord 32 e.1 = some e.2 := by decide +kernel

theorem test_decode_fields_i_2 : ∀ e ∈ ([
    (0x40200010, .bararr ⟨1, 16⟩),
    (0x40210010, .barwait ⟨1, 16⟩),
    (0x40220010, .barsync ⟨1, 16⟩)] : List (Nat × Instr)),
    decodeTableWord 32 e.1 = some e.2 := by decide +kernel

theorem test_decode_fields_d_i_2 : ∀ e ∈ ([
    (0x40230570, .bartest ⟨1, 43, 16⟩)] : List (Nat × Instr)),
    decodeTableWord 32 e.1 = some e.2 := by decide +kernel

theorem test_decode_fields_i_3 : ∀ e ∈ ([
    (0x402A00B9, .txabort ⟨1, 185⟩)] : List (Nat × Instr)),
    decodeTableWord 32 e.1 = some e.2 := by decide +kernel

theorem test_decode_fields_d_a : ∀ e ∈ ([
    (0x403015CD, .rmap ⟨1, 43, 77⟩)] : List (Nat × Instr)),
    decodeTableWord 32 e.1 = some e.2 := by decide +kernel

/-! ### The spec's own worked words (R135, R156) -/

theorem test_decode_words_of_the_vector_chapter : ∀ e ∈ ([
    (0x5A14102C, .vfma ⟨1, 10, 4, 5, true, false⟩),
    (0x60180415, .vcmp ⟨1, 12, 1, 2, 5⟩),
    (0x610C0410, .vsel ⟨1, 6, 1, 2, false, false⟩),
    (0x630C1052, .vsqrt ⟨1, 6, 4, true, 2⟩),
    (0x64062150, .vcvt ⟨1, 3, 8, true, 5, false⟩),
    (0x65061039, .vgets ⟨1, 3, 4, 7, false, false⟩),
    (0x67121028, .vredwMax ⟨1, 9, 4, true⟩),
    (0x680407FF, .vaddi ⟨1, 2, 1, 0x1FF, true⟩),
    (0x690BFFFD, .vmovi ⟨1, 5, 0x1FFFD⟩),
    (0x6A080830, .vqnt ⟨1, 4, 2, 6, 0⟩)] : List (Nat × Instr)),
    decodeTableWord 32 e.1 = some e.2 := by decide +kernel

theorem test_decode_words_of_the_memory_chapter : ∀ e ∈ ([
    (0x72080451, .vst ⟨1, 4, 1, 5, 1⟩),
    (0x750C0492, .vstd ⟨1, 6, 1, 9, 2⟩),
    (0x76060840, .vldl ⟨1, 3, 2, 4, 0⟩),
    (0x7A8F0CA0, .sldacq ⟨1, 7, 67, 10, 0⟩),
    (0x7B880140, .sstrel ⟨1, 4, 0, 20, 0⟩),
    (0x7D040020, .cflush ⟨1, 0, 2, 0⟩)] : List (Nat × Instr)),
    decodeTableWord 32 e.1 = some e.2 := by decide +kernel

/-! ### Ill-formed words are refused, each check of R64 under its own name -/

/-- What the decoder calls the fault of a word. -/
def refusal (w : W32) : Option Reject :=
  match decode w with
  | .ok _ => none
  | .error r => some r

theorem test_refuses_schedule_version : WellFormed (.nop ⟨3⟩) = false ∧ refusal 0xC0000000 = some .scheduleVersion := by
  decide +kernel
theorem test_refuses_major_opcode : refusal 0x7F000000 = some .majorOpcode := by decide +kernel
theorem test_refuses_sub_code : WellFormed (.vcvt ⟨1, 0, 0, false, 9, false⟩) = false ∧
    refusal 0x64000090 = some .subCode ∧ refusal 0x43000003 = some .subCode := by decide +kernel
theorem test_refuses_nonzero_reserved_bits : refusal 0x46000040 = some .mustBeZero := by decide +kernel
theorem test_refuses_last_read_flag_without_vector_source : WellFormed (.smov ⟨1, 0, 0, true⟩) = false ∧
    WellFormed (.smov ⟨0, 0, 0, true⟩) = true ∧ refusal 0x4C000008 = some .mustBeZero ∧ refusal 0x0C000008 = none := by
  decide +kernel
theorem test_refuses_scalar_destination : WellFormed (.sadd ⟨1, 64, 0, 0⟩) = false ∧
    refusal 0x41800000 = some .scalarDest := by decide +kernel
theorem test_refuses_odd_pair : WellFormed (.vldd ⟨1, 5, 1, 2, 0⟩) = false ∧ refusal 0x710A0420 = some .oddPair := by
  decide +kernel
theorem test_refuses_immediate_value : WellFormed (.bararr ⟨1, 17⟩) = false ∧ WellFormed (.waitc ⟨1, 0, 7⟩) = false := by
  decide +kernel
theorem test_refuses_system_register_number : WellFormed (.sysr ⟨1, 0, 0x3FF⟩) = false := by decide +kernel
theorem test_refuses_short_bytes : decodeBytes [0, 0, 0] = .error .truncated := rfl

/-! ### Single instructions: values worked out by hand from the spec's tables -/

/-- A scalar register of the team after an instruction. -/
def sreg (n : Nat) (i : Instr) (t : Team) : Option W64 := (after i (on t)).bind fun t => t.s[n]?

/-- One lane of word 0 of a vector register after an instruction. -/
def lane (r n : Nat) (i : Instr) (t : Team) : Option W32 :=
  ((after i (on t)).bind fun t => t.row r 0).bind fun v => v[n]?

/-- The program counter after an instruction. -/
def pcAfter (i : Instr) (t : Team) : Option Nat := (after i (on t)).map fun t => t.pc.toNat

-- R110: results wrap, SMULH is the signed high half, SROT takes b[5:0], SLEA8 is a + 8b, SMULHU unsigned
theorem test_sadd_wraps : sreg 1 (.sadd ⟨1, 1, 1, 2⟩) (withRegs [(1, 0xFFFFFFFFFFFFFFFF), (2, 3)]) = some 2 := by
  decide +kernel
theorem test_ssub_order : sreg 1 (.ssub ⟨1, 1, 2, 3⟩) (withRegs [(2, 5), (3, 7)]) = some 0xFFFFFFFFFFFFFFFE := by
  decide +kernel
theorem test_smulh_signed : sreg 1 (.smulh ⟨1, 1, 2, 3⟩) (withRegs [(2, 0xFFFFFFFFFFFFFFFF), (3, 2)]) =
    some 0xFFFFFFFFFFFFFFFF := by decide +kernel
theorem test_smulhu_unsigned : sreg 1 (.smulhu ⟨1, 1, 2, 3⟩) (withRegs [(2, 0xFFFFFFFFFFFFFFFF), (3, 2)]) = some 1 := by
  decide +kernel
theorem test_sandn_order : sreg 1 (.sandn ⟨1, 1, 2, 3⟩) (withRegs [(2, 0xF), (3, 0x5)]) = some 0xA := by decide +kernel
theorem test_ssar_amount : sreg 1 (.ssar ⟨1, 1, 2, 3⟩) (withRegs [(2, 0x8000000000000000), (3, 0x41)]) =
    some 0xC000000000000000 := by decide +kernel
theorem test_srot_left : sreg 1 (.srot ⟨1, 1, 2, 3⟩) (withRegs [(2, 0x8000000000000001), (3, 4)]) = some 0x18 := by
  decide +kernel
theorem test_smin_signed : sreg 1 (.smin ⟨1, 1, 2, 3⟩) (withRegs [(2, 0xFFFFFFFFFFFFFFFF), (3, 1)]) =
    some 0xFFFFFFFFFFFFFFFF := by decide +kernel
theorem test_sminu_unsigned : sreg 1 (.sminu ⟨1, 1, 2, 3⟩) (withRegs [(2, 0xFFFFFFFFFFFFFFFF), (3, 1)]) = some 1 := by
  decide +kernel
theorem test_slea8 : sreg 1 (.slea8 ⟨1, 1, 2, 3⟩) (withRegs [(2, 1), (3, 0x10)]) = some 0x81 := by decide +kernel
-- R111: SANDI with −64 clears the low six bits only
theorem test_sandi_sign_extends : sreg 1 (.sandi ⟨1, 1, 2, 0x3C0⟩) (withRegs [(2, 0xFFFFFFFFFFFF1234)]) =
    some 0xFFFFFFFFFFFF1200 := by decide +kernel
-- R112: the example SMOVI 0x10000, and SSETH over it
theorem test_smovi_sign : sreg 7 (.smovi ⟨1, 7, 0x10000⟩) stagedTeam = some 0xFFFFFFFFFFFF0000 := by decide +kernel
theorem test_sseth_overwrites_copies : sreg 7 (.sseth ⟨1, 7, 0x00001⟩) (withRegs [(7, 0xFFFFFFFFFFFF0000)]) =
    some 0x30000 := by decide +kernel
theorem test_ssett : sreg 7 (.ssett ⟨1, 7, 0x00001⟩) (withRegs [(7, 0xFFFFFFFFFFFF0000)]) = some 0x7FFFF0000 := by
  decide +kernel
-- R113
theorem test_scmp_lt_signed : sreg 1 (.scmp ⟨1, 1, 2, 3, 2⟩) (withRegs [(2, 0xFFFFFFFFFFFFFFFF), (3, 1)]) = some 1 := by
  decide +kernel
theorem test_scmp_ltu : sreg 1 (.scmp ⟨1, 1, 2, 3, 4⟩) (withRegs [(2, 0xFFFFFFFFFFFFFFFF), (3, 1)]) = some 0 := by
  decide +kernel
-- R114
theorem test_sclz_zero : sreg 1 (.sclz ⟨1, 1, 2, false⟩) stagedTeam = some 64 := by decide +kernel
theorem test_sctz : sreg 1 (.sctz ⟨1, 1, 2, false⟩) (withRegs [(2, 0x50)]) = some 4 := by decide +kernel
theorem test_sabs_minimum : sreg 1 (.sabs ⟨1, 1, 2, false⟩) (withRegs [(2, 0x8000000000000000)]) =
    some 0x8000000000000000 := by decide +kernel
theorem test_sbrev : sreg 1 (.sbrev ⟨1, 1, 2, false⟩) (withRegs [(2, 0x1)]) = some 0x8000000000000000 := by decide +kernel
theorem test_ssext32 : sreg 1 (.ssext32 ⟨1, 1, 2, false⟩) (withRegs [(2, 0x180000000)]) = some 0xFFFFFFFF80000000 := by
  decide +kernel
-- R115, R116: 32 lanes leave the upper half zero
theorem test_mandn_upper_half : sreg 1 (.mandn ⟨1, 1, 2, 3⟩) (withRegs [(2, 0xFF000000F0), (3, 0x30), (1, 0xFFFFFFFFFFFFFFFF)]) =
    some 0xC0 := by decide +kernel
theorem test_mffs_none : sreg 1 (.mffs ⟨1, 1, 2, false⟩) (withRegs [(2, 0x100000000)]) = some 0xFFFFFFFFFFFFFFFF := by
  decide +kernel
theorem test_mset_32_lanes : sreg 1 (.mset ⟨1, 1, 0, false⟩) stagedTeam = some 0xFFFFFFFF := by decide +kernel
-- R117, R118
theorem test_br_backwards_wraps : pcAfter (.br ⟨1, 0, 0x3FFFF⟩) stagedTeam = some 0xFFFFFFFFFFFC := by decide +kernel
theorem test_brz_not_taken : pcAfter (.brz ⟨1, 2, 0x10⟩) (withRegs [(2, 1)]) = some 4 := by decide +kernel
theorem test_call_links : sreg 5 (.call ⟨1, 5, 0x10⟩) stagedTeam = some 4 ∧ pcAfter (.call ⟨1, 5, 0x10⟩) stagedTeam =
    some 0x40 := by decide +kernel
theorem test_callr_same_register : sreg 63 (.callr ⟨1, 63, 63, false⟩) (withRegs [(63, 0x80)]) = some 4 ∧
    pcAfter (.callr ⟨1, 63, 63, false⟩) (withRegs [(63, 0x80)]) = some 0x80 := by decide +kernel
-- R121
theorem test_modei_keeps_upper_half : (after (.modei ⟨1, 0x0180⟩) (on { stagedTeam with mode := 0x3F0002 })).map (·.mode) =
    some 0x3F0180 := by decide +kernel
-- Vector arithmetic, one lane of word 0. MODE.ET is bits [3:0] (R21): 0 I32, 1 N32, 2 F32, 5 I16x2; 0x80 is SAT.
/-- A team with a mode and with v1 and v2 holding one value in every lane. -/
def pairTeam (mode : W32) (x y : W32) : Team := { withRows [(1, fun _ => x), (2, fun _ => y)] with mode := mode }

-- R136 with R130: I32 wraps
theorem test_vadd_integer_wraps : lane 3 5 (.vadd ⟨1, 3, 1, 2, false, false⟩) (pairTeam 0 0x7FFFFFFF 1) = some 0x80000000 := by
  decide +kernel
-- R136 with R80: 1 + 2^−24 is a tie, to even under RNE
theorem test_vadd_ties_to_even : lane 3 5 (.vadd ⟨1, 3, 1, 2, false, false⟩) (pairTeam 2 0x3F800000 0x33800000) =
    some 0x3F800000 := by decide +kernel
theorem test_vsub_order : lane 3 5 (.vsub ⟨1, 3, 1, 2, false, false⟩) (pairTeam 5 0x00010000 0x00000001) =
    some 0x0001FFFF := by decide +kernel
theorem test_vmul_float : lane 3 5 (.vmul ⟨1, 3, 1, 2, false, false⟩) (pairTeam 2 0x40400000 0xBF000000) =
    some 0xBFC00000 := by decide +kernel
theorem test_vmulh_signed : lane 3 5 (.vmulh ⟨1, 3, 1, 2, false, false⟩) (pairTeam 0 0xFFFFFFFF 1) =
    some 0xFFFFFFFF := by decide +kernel
-- R137: −0 counts as less than +0
theorem test_vmin_signed_zero : lane 3 5 (.vmin ⟨1, 3, 1, 2, false, false⟩) (pairTeam 2 0 0x80000000) =
    some 0x80000000 := by decide +kernel
-- R139: the example under N32, without and with SAT
theorem test_vaddi_unsigned : lane 3 5 (.vaddi ⟨1, 3, 1, 0x1FF, false⟩) (pairTeam 0x01 0 0) = some 0xFFFFFFFF := by
  decide +kernel
theorem test_vmovi_sign : lane 3 5 (.vmovi ⟨1, 3, 0x1FFFD⟩) stagedTeam = some 0xFFFFFFFD := by decide +kernel
-- R141: −1 < 1 signed; bits of the 32 lanes, the upper half kept
theorem test_vcmp_signed : sreg 4 (.vcmp ⟨1, 4, 1, 2, 2⟩) { pairTeam 0 0xFFFFFFFF 1 with
    s := Vector.replicate 64 0xAA00000000 } = some 0xAAFFFFFFFF := by decide +kernel
-- R143: the example
theorem test_vflk : lane 3 5 (.vflk ⟨1, 3, 1, 2, false, false⟩) (pairTeam 2 1 0x30000000) = some 0x3E900000 := by
  decide +kernel
-- R144: VCEIL of −0.5 is −0; VRND of 2.5 to even is 2
theorem test_vceil_keeps_sign : lane 3 5 (.vceil ⟨1, 3, 1, false⟩) (pairTeam 2 0xBF000000 0) = some 0x80000000 := by
  decide +kernel
theorem test_vrnd_to_even : lane 3 5 (.vrnd ⟨1, 3, 1, false⟩) (pairTeam 2 0x40200000 0) = some 0x40000000 := by
  decide +kernel
theorem test_vlane : lane 3 5 (.vlane ⟨1, 3, 0, false⟩) stagedTeam = some 5 := by decide +kernel
-- R145: a negative subnormal is bit 4
theorem test_vclass_subnormal : lane 3 5 (.vclass ⟨1, 3, 1, false⟩) (pairTeam 2 0x80000001 0) = some 0x10 := by
  decide +kernel
-- R147: F32 to I32 clamps, NaN gives 0
theorem test_vcvt_clamps : lane 3 5 (.vcvt ⟨1, 3, 1, false, 0, false⟩) (pairTeam 2 0x4F800000 0) = some 0x7FFFFFFF := by
  decide +kernel
theorem test_vcvt_nan : lane 3 5 (.vcvt ⟨1, 3, 1, false, 0, false⟩) (pairTeam 2 0x7FC00000 0) = some 0 := by decide +kernel
-- R146: powers of two are exact
theorem test_vlog2_exact : lane 3 5 (.vlog2 ⟨1, 3, 1, false, 0⟩) (pairTeam 2 0x41000000 0) = some 0x40400000 := by
  decide +kernel
theorem test_vsqrt : lane 3 5 (.vsqrt ⟨1, 3, 1, false, 0⟩) (pairTeam 2 0x40000000 0) = some 0x3FB504F3 := by
  decide +kernel
-- R150: sign extension under I32
theorem test_vgets_sign_extends : sreg 4 (.vgets ⟨1, 4, 1, 5, false, false⟩) (pairTeam 0 0x80000000 0) =
    some 0xFFFFFFFF80000000 := by decide +kernel
-- R151: lane 5 of VBFLY by 1 takes lane 4
theorem test_vbfly : lane 3 5 (.vbfly ⟨1, 3, 1, 5, false, false⟩) { withRows [(1, fun n => BitVec.ofNat 32 n)] with
    s := Vector.replicate 64 1 } = some 4 := by decide +kernel
-- R152: 0 + 1 + … + 31 under I32
theorem test_vredw_add : sreg 4 (.vredwAdd ⟨1, 4, 1, false⟩) { withRows [(1, fun n => BitVec.ofNat 32 n)] with
    mode := 0 } = some 496 := by decide +kernel

/-- The team of the example of R153 and R154. -/
def quantTeam (a : W32) (b : W32) : Team :=
  { withRows [(2, fun n => if n = 0 then a else b)] with
    fkey := 0x30000000, s := Vector.ofFn fun i : Fin 64 => if i.val = 6 then 0x100000000 else if i.val = 7 then 0x100000002 else 0 }

theorem test_vqnt_example : lane 4 0 (.vqnt ⟨1, 4, 2, 6, 0⟩) (quantTeam 0x3E600000 0x3FA60000) = some 0x26 ∧
    lane 4 1 (.vqnt ⟨1, 4, 2, 6, 0⟩) (quantTeam 0x3E600000 0x3FA60000) = some 0x3B := by decide +kernel
theorem test_vdqnt_example : lane 5 0 (.vdqnt ⟨1, 5, 2, 6, 0⟩) (quantTeam 0x26 0x3B) = some 0x3E648000 ∧
    lane 5 1 (.vdqnt ⟨1, 5, 2, 7, 0⟩) (quantTeam 0x26 0x3B) = some 0x3FB78000 := by decide +kernel

/-- The team of the example of R134: 64 lanes, v3 / v1 with TE.DZ and TE.OF. -/
def divTeam : Team :=
  let one : W32 := 0x3F800000
  { stagedTeam with
    lanes := 64, mode := 0x000C0002
    rows := [
      (rowKey 1 0, Vector.ofFn fun i : Fin 32 => if i.val = 2 then 0x3E000000 else one),
      (rowKey 1 1, Vector.ofFn fun i : Fin 32 => if i.val = 5 ∨ i.val = 18 then 0 else one),
      (rowKey 3 0, Vector.ofFn fun i : Fin 32 => if i.val = 2 then 0x7E400000 else one),
      (rowKey 3 1, Vector.ofFn fun i : Fin 32 => if i.val = 18 then 0xC0000000 else one)] }

theorem test_vdiv_example_values : lane 3 2 (.vdiv ⟨1, 3, 1, false, 0⟩) divTeam = some 0x7F800000 ∧
    ((after (.vdiv ⟨1, 3, 1, false, 0⟩) (on divTeam)).bind fun t => t.row 3 1).bind (fun v => v[18]?) = some 0xFF800000 := by
  decide +kernel
theorem test_vdiv_example_trap : (after (.vdiv ⟨1, 3, 1, false, 0⟩) (on divTeam)).map
    (fun t => [t.fpflags.toNat, t.trapinfo.toNat, t.trappass.toNat, t.traplane.toNat]) = some [0x16, 0x1602, 1, 37] := by
  decide +kernel

/-! ### Scalar, mask and control statements -/

theorem witness_ScalarThreeOperandResults : let f : S3 := ⟨1, 63, 127, 0⟩
    (on stagedTeam).CanIssueScalar 0 stagedTeam [f.d.toNat, f.a.toNat, f.b.toNat] := staged_can_issue _

theorem witness_ScalarImmediateAndConstantResults : let f : SI := ⟨1, 63, 127, 0x200⟩
    let g : SH := ⟨1, 63, 127, 63⟩
    let h : LI := ⟨1, 63, 0x10000⟩
    (on stagedTeam).CanIssueScalar 0 stagedTeam [f.d.toNat, f.a.toNat] ∧
    (on stagedTeam).CanIssueScalar 0 stagedTeam [g.d.toNat, g.a.toNat] ∧
    (on stagedTeam).CanIssueScalar 0 stagedTeam [h.d.toNat, h.d.toNat] :=
  ⟨staged_can_issue _, staged_can_issue _, staged_can_issue _⟩

theorem witness_ScalarCompareResult : let f : CS := ⟨1, 63, 1, 2, 7⟩
    (on (withRegs [(1, 3), (2, 1)])).CanIssueScalar 0 (withRegs [(1, 3), (2, 1)])
      [f.d.toNat, f.a.toNat, f.b.toNat] := regs_can_issue _ _

theorem witness_ScalarFunctionResults : let f : FS := ⟨1, 63, 127, false⟩
    (on stagedTeam).CanIssueScalar 0 stagedTeam [f.d.toNat, f.a.toNat] := staged_can_issue _

/-- The staged team with the most lanes: a block has 16 registers. -/
def wideTeam : Team := { stagedTeam with lanes := 1024 }

theorem wide_can_issue (uses : List Nat) : (on wideTeam).CanIssueScalar 0 wideTeam uses :=
  can_issue _ _ ⟨rfl, rfl, by decide, by simp [wideTeam, stagedTeam]⟩

theorem witness_MaskInstructions : let f : S3 := ⟨1, 48, 112, 48⟩
    let g : FS := ⟨1, 63, 112, false⟩
    let h : FS := ⟨1, 48, 0, false⟩
    Claims.legalLanes wideTeam ∧ f.d.toNat < 64 ∧ Claims.blockFits wideTeam f.a ∧ Claims.blockFits wideTeam f.b ∧
    Claims.blockFits wideTeam f.d ∧
    (on wideTeam).CanIssueScalar 0 wideTeam (Claims.blockRange wideTeam f.a.toNat ++
      Claims.blockRange wideTeam f.b.toNat ++ Claims.blockRange wideTeam f.d.toNat) ∧
    g.d.toNat < 64 ∧ Claims.blockFits wideTeam g.a ∧
    (on wideTeam).CanIssueScalar 0 wideTeam (Claims.blockRange wideTeam g.a.toNat ++ [g.d.toNat]) ∧
    h.d.toNat < 64 ∧ Claims.blockFits wideTeam h.d ∧ Claims.blockFits wideTeam h.a ∧
    (on wideTeam).CanIssueScalar 0 wideTeam (Claims.blockRange wideTeam h.d.toNat) ∧
    (on wideTeam).CanIssueScalar 0 wideTeam
      (Claims.blockRange wideTeam h.a.toNat ++ Claims.blockRange wideTeam h.d.toNat) :=
  ⟨by decide, by decide, by decide, by decide, by decide, wide_can_issue _, by decide, by decide, wide_can_issue _,
    by decide, by decide, by decide, wide_can_issue _, wide_can_issue _⟩

theorem witness_BlockBeyondItsFileTraps : let f : S3 := ⟨1, 0, 49, 64⟩
    let g : FS := ⟨1, 0, 127, false⟩
    let h : FS := ⟨1, 49, 0, false⟩
    let b : BX := ⟨1, 49, 0⟩
    Claims.legalLanes wideTeam ∧
    ¬ (Claims.blockFits wideTeam f.a ∧ Claims.blockFits wideTeam f.b ∧ Claims.blockFits wideTeam f.d) ∧
    ¬ (Claims.blockFits wideTeam g.a ∧ Claims.blockFits wideTeam g.d) ∧ ¬ Claims.blockFits wideTeam h.d ∧
    ¬ Claims.blockFits wideTeam g.a ∧ ¬ Claims.blockFits wideTeam (b.s.setWidth 7) ∧
    ∀ uses, (on wideTeam).CanIssueScalar 0 wideTeam uses :=
  ⟨by decide, by decide, by decide, by decide, by decide, by decide, wide_can_issue⟩

theorem witness_BranchTargets : let f : BX := ⟨1, 48, 0x20000⟩
    Claims.legalLanes wideTeam ∧ Claims.blockFits wideTeam (f.s.setWidth 7) ∧
    ∀ uses, (on wideTeam).CanIssueScalar 0 wideTeam uses := ⟨by decide, by decide, wide_can_issue⟩

theorem witness_RegisterJumps : let f : FS := ⟨1, 63, 1, false⟩
    let t₁ := withRegs [(1, 0xFFFFFFFFFFFC)]
    let t₂ := withRegs [(1, 0x1000000000000)]
    let t₃ := withRegs [(1, 0xFFFFFFFFFFFE)]
    ((t₁.src f.a).toNat < 2 ^ 48 ∧ (t₁.src f.a).toNat % 4 = 0 ∧ f.d.toNat < 64 ∧
      ∀ uses, (on t₁).CanIssueScalar 0 t₁ uses) ∧
    (2 ^ 48 ≤ (t₂.src f.a).toNat ∧ ∀ uses, (on t₂).CanIssueScalar 0 t₂ uses) ∧
    ((t₃.src f.a).toNat < 2 ^ 48 ∧ (t₃.src f.a).toNat % 4 ≠ 0 ∧ ∀ uses, (on t₃).CanIssueScalar 0 t₃ uses) :=
  ⟨⟨by decide, by decide, by decide, regs_can_issue _⟩, ⟨by decide, regs_can_issue _⟩,
    ⟨by decide, by decide, regs_can_issue _⟩⟩
/-! ### Vector statements -/

/-- Vector registers v1 and v2 mapped in word 0. -/
def rowTeam : Team := withRows [(1, fun n => BitVec.ofNat 32 n), (2, fun _ => 0x3F800000)]

theorem row_can_issue (uses : List Nat) : (on rowTeam).CanIssueScalar 0 rowTeam uses :=
  can_issue _ _ ⟨rfl, rfl, by decide, by simp [rowTeam, withRows, stagedTeam]⟩

theorem witness_VectorArithmeticByLane : ∃ L, Claims.laneArith rowTeam (.vadd ⟨1, 127, 1, 2, true, false⟩) = some L ∧
    (on rowTeam).CanIssue 0 rowTeam (L.all rowTeam) ∧ Claims.legalLanes rowTeam ∧ L.checks = true ∧ rowTeam.te = 0 ∧
    L.lanes.Clear (on rowTeam) rowTeam.issued (rowTeam.reading (L.all rowTeam)) :=
  ⟨_, rfl, (row_can_issue _).1, by decide, by decide, by decide, ⟨by decide, by decide, trivial⟩⟩

theorem witness_VectorFunctionsByLane : ∃ L, Claims.laneFunction rowTeam (.vclass ⟨1, 127, 1, true⟩) = some L ∧
    (on rowTeam).CanIssue 0 rowTeam (L.all rowTeam) ∧ Claims.legalLanes rowTeam ∧ L.checks = true ∧ rowTeam.te = 0 ∧
    L.lanes.Clear (on rowTeam) rowTeam.issued (rowTeam.reading (L.all rowTeam)) :=
  ⟨_, rfl, (row_can_issue _).1, by decide, by decide, by decide, ⟨by decide, by decide, trivial⟩⟩

theorem witness_VectorConversionsByLane : ∃ L, Claims.laneConvert rowTeam (.vqnt ⟨1, 127, 1, 4, 0⟩) = some L ∧
    (on rowTeam).CanIssue 0 rowTeam (L.all rowTeam) ∧ Claims.legalLanes rowTeam ∧ L.checks = true ∧ rowTeam.te = 0 ∧
    L.lanes.Clear (on rowTeam) rowTeam.issued (rowTeam.reading (L.all rowTeam)) :=
  ⟨_, rfl, (row_can_issue _).1, by decide, by decide, by decide, ⟨by decide, by decide, trivial⟩⟩

theorem witness_VectorCompareBits : let f : CS := ⟨1, 63, 1, 2, 2⟩
    let t := rowTeam
    Claims.legalLanes t ∧ f.d.toNat < 64 ∧ Claims.blockFits t f.d ∧ Claims.consults t true = true ∧
    Claims.evenIf t.ctx.et.wide [f.a.toNat, f.b.toNat] = true ∧ t.te = 0 ∧
    (on t).CanIssue 0 t (Claims.blockRange t f.d.toNat ++ t.guardRegs) ∧
    (cmpLanes f (t.reading (Claims.blockRange t f.d.toNat ++ t.guardRegs))).Clear (on t) t.issued
      (t.reading (Claims.blockRange t f.d.toNat ++ t.guardRegs)) :=
  ⟨by decide, by decide, by decide, by decide, by decide, by decide, (row_can_issue _).1, ⟨by decide, by decide, trivial⟩⟩

theorem witness_VectorLaneMovement : let f : V3 := ⟨1, 63, 1, 2, false, false⟩
    let t := rowTeam
    Claims.legalLanes t ∧ Claims.consults t true = true ∧ t.te = 0 ∧ f.d.toNat < 64 ∧
    Claims.evenIf t.ctx.et.wide [f.d.toNat, f.a.toNat, f.b.toNat] = true ∧
    (∀ uses, (on t).CanIssue 0 t uses) ∧
    (getsLanes f (t.reading ([f.d.toNat, f.b.toNat] ++ t.guardRegs))).Clear (on t)
      (getsWords f (t.reading ([f.d.toNat, f.b.toNat] ++ t.guardRegs)))
      (t.reading ([f.d.toNat, f.b.toNat] ++ t.guardRegs)) ∧
    (exchangeLanes f true (shflLane f) (t.reading t.guardRegs)).Clear (on t) t.issued (t.reading t.guardRegs) ∧
    (exchangeLanes f false (bflyLane f) (t.reading ([f.b.toNat] ++ t.guardRegs))).Clear (on t) t.issued
      (t.reading ([f.b.toNat] ++ t.guardRegs)) :=
  ⟨by decide, by decide, by decide, by decide, by decide, fun _ => (row_can_issue _).1,
    ⟨by decide, by decide, trivial⟩, ⟨by decide, by decide, trivial⟩, ⟨by decide, by decide, trivial⟩⟩

theorem witness_VectorReductionCompletes : let f : FS := ⟨1, 63, 1, true⟩
    let t := rowTeam
    Claims.legalLanes t ∧ f.d.toNat < 64 ∧ Claims.consults t true = true ∧
    Claims.evenIf t.ctx.et.wide [f.a.toNat] = true ∧ Claims.rounds t = true ∧ t.te = 0 ∧
    (on t).CanIssue 0 t ([f.d.toNat] ++ t.guardRegs) ∧
    (reduceLanes f addElem (t.reading ([f.d.toNat] ++ t.guardRegs))).Clear (on t) t.issued
      (t.reading ([f.d.toNat] ++ t.guardRegs)) ∧
    (reduceLanes f (minMaxElem true) (t.reading ([f.d.toNat] ++ t.guardRegs))).Clear (on t) t.issued
      (t.reading ([f.d.toNat] ++ t.guardRegs)) ∧
    (reduceLanes f (bitElem (· &&& ·)) (t.reading ([f.d.toNat] ++ t.guardRegs))).Clear (on t) t.issued
      (t.reading ([f.d.toNat] ++ t.guardRegs)) :=
  ⟨by decide, by decide, by decide, by decide, by decide, by decide, (row_can_issue _).1,
    ⟨by decide, by decide, trivial⟩, ⟨by decide, by decide, trivial⟩, ⟨by decide, by decide, trivial⟩⟩

/-- A context of an integer type, with and without SAT. -/
theorem witness_IntegerElementsAreFitted : ∃ x y : Ctx, x.et.fmt = none ∧ y.et.fmt = none ∧ x.sat = false ∧ y.sat = true :=
  ⟨{ stagedTeam with mode := 0x00 }.ctx, { stagedTeam with mode := 0x80 }.ctx, by decide, by decide, by decide, by decide⟩

theorem witness_UnmappedReadTraps : let t := stagedTeam
    ∃ L w eff rest r, Claims.laneArith t (.vadd ⟨1, 3, 1, 2, false, false⟩) = some L ∧
    (on t).CanIssue 0 t (L.all t) ∧ L.checks = true ∧ t.issued = (w, eff) :: rest ∧ (on t).checkFires t w = none ∧
    L.lanes.reads.find? (fun r => (t.row r w).isNone) = some r :=
  ⟨_, 0, _, [], 1, rfl, (staged_can_issue _).1, by decide, rfl, rfl, by decide⟩

/-- A team that enables every class, and an invalid operation in lane 3 of word 1. -/
theorem witness_EnabledExceptionTraps : let t : Team := { stagedTeam with mode := 0x1F0002 }
    let ev : List Raised := [{ w := 1, lane := 35, fl := 1 }]
    raisedAll ev &&& t.te ≠ 0 := by decide
/-! ### Memory statements -/

/-- A line at 0x1000 of the staged team, every page bit set. -/
def line0 : Line := { pa := 0x1000, r := true, w := true, x := true, u := true }

/-- The machine of `on` with that line present and in the core's checker cache. -/
def mem (t : Team) : State := { on t with lines := [(32, line0)], cores := [(0, { ckc := [32] })] }

theorem mem_can_issue (t : Team) (uses : List Nat) (h : t.mayIssue = true ∧ t.dueReport = none ∧
    t.pass < t.words ∧ uses.any (t.busy.contains ·) = false) : (mem t).CanIssueScalar 0 t uses :=
  ⟨⟨rfl, rfl, h.1, h.2.1, h.2.2.2, rfl⟩, h.2.2.1, rfl⟩

/-- s10 points to the last doubleword of the line. -/
def memTeam : Team := withRegs [(10, 0x1078), (6, 0x1122334455667788)]

theorem witness_ScalarLoadResult : let f : MS := ⟨1, 63, 71, 10, 0⟩
    let t := memTeam
    ∃ loc page, (mem t).CanIssueScalar 0 t [f.d.toNat, f.a.toNat, f.s.toNat] ∧
    Claims.pathReady t ((mem t).pathOf t false pathLDG [Claims.scalarEA t f]) ∧
    (mem t).Grants 0 t false .load 8 (Claims.scalarEA t f) loc page :=
  ⟨_, _, mem_can_issue _ _ (by decide), by decide, rfl, fun _ => rfl⟩

/-- The same team in a DET grid. -/
def detTeam : Team := { memTeam with launch := { det := true, qlog := 20 } }

theorem witness_ScalarStoreResult : let f : MS := ⟨1, 6, 71, 10, 0⟩
    ∀ t ∈ [memTeam, detTeam], ∃ loc page, (mem t).CanIssueScalar 0 t [f.d.toNat, f.a.toNat, f.s.toNat] ∧
    Claims.pathReady t ((mem t).pathOf t false pathSTG [Claims.scalarEA t f]) ∧
    (mem t).Grants 0 t false .store 8 (Claims.scalarEA t f) loc page ∧ loc.inLine % 8 = 0 ∧
    Claims.storeRoom (mem t) 0 t loc ∧ (mem t).released 0 t = true := by
  intro f t h
  simp only [List.mem_cons, List.not_mem_nil, or_false] at h
  rcases h with rfl | rfl
  · exact ⟨.virt 0 0x1078, some (line0.page 0x1078), mem_can_issue _ _ (by decide), by decide, by decide, by decide,
      by simp only [Claims.storeRoom]; decide, rfl⟩
  · exact ⟨.virt 0 0x1078, some (line0.page 0x1078), mem_can_issue _ _ (by decide), by decide, by decide, by decide,
      by simp only [Claims.storeRoom]; decide, rfl⟩

theorem witness_ScalarAccessTraps : let f : MS := ⟨1, 6, 71, 10, 0⟩
    let t₁ := withRegs [(10, 0x1000000000007)]
    let t₂ := withRegs [(10, 0x1000000000000)]
    (∀ t ∈ [t₁, t₂], (mem t).CanIssueScalar 0 t [f.d.toNat, f.a.toNat, f.s.toNat] ∧ t.openOp = none ∧
      Claims.pathReady t ((mem t).pathOf t false pathLDG [Claims.scalarEA t f]) ∧
      Claims.pathReady t ((mem t).pathOf t false pathSTG [Claims.scalarEA t f]) ∧ (mem t).released 0 t = true) ∧
    (Claims.scalarEA t₁ f).toNat % 8 ≠ 0 ∧
    (Claims.scalarEA t₂ f).toNat % 8 = 0 ∧ 2 ^ 48 ≤ (Claims.scalarEA t₂ f).toNat := by
  refine ⟨?_, by decide, by decide, by decide⟩
  intro t h
  simp only [List.mem_cons, List.not_mem_nil, or_false] at h
  rcases h with rfl | rfl <;> exact ⟨mem_can_issue _ _ (by decide), rfl, by decide, by decide, rfl⟩

/-- Lane n addresses word n of the line, or of the scratchpad. -/
def laneTeam : Team :=
  { stagedTeam with
    launch := { scratch := 128 }
    s := (Vector.replicate 64 (0 : W64)).setIfInBounds 10 0x1000
    rows := [(rowKey 1 0, Vector.ofFn fun i : Fin 32 => BitVec.ofNat 32 (4 * i)), (rowKey 2 0, Vector.replicate 32 7)] }

theorem lane_can_issue (uses : List Nat) : (mem laneTeam).CanIssueScalar 0 laneTeam uses :=
  mem_can_issue _ _ ⟨by decide, by decide, by decide, by simp [laneTeam, stagedTeam]⟩

theorem witness_VectorLoadsByLane : let t := laneTeam
    (∃ loc page, let f : MV := ⟨1, 127, 1, 10, 0⟩
      (mem t).CanIssue 0 t (f.s.toNat :: t.guardRegs) ∧ t.guardBeyond = false ∧ Claims.legalLanes t ∧
      Claims.ordinary t false ∧
      Claims.pathReady t ((mem t).pathOf t false pathLDG (Claims.overLanes t (Claims.laneEA t f))) ∧
      Claims.loadsReady 0 f false 4 loc page t.issued (mem t) t) ∧
    ∃ loc page, let f : MV := ⟨1, 127, 1, 0, 0⟩
      (mem t).CanIssue 0 t (f.s.toNat :: t.guardRegs) ∧ Claims.ordinary t true ∧
      Claims.pathReady t ((mem t).pathOf t true pathLDG (Claims.overLanes t (Claims.laneEA t f))) ∧
      Claims.loadsReady 0 f true 4 loc page t.issued (mem t) t :=
  ⟨⟨fun _ b => .virt 0 (0x1000 + 4 * b), fun _ b => some (line0.page (0x1000 + 4 * b)), (lane_can_issue _).1, by decide,
      by decide, by decide, by decide, by decide, by decide, by decide, by decide, trivial⟩,
    fun _ b => .pool 0 0 (4 * b), fun _ _ => none, (lane_can_issue _).1, by decide, by decide,
      by decide, by decide, by decide, by decide, trivial⟩

theorem witness_VectorStoresByLane : let t := laneTeam
    (∃ loc page, let f : MV := ⟨1, 2, 1, 10, 0⟩
      (mem t).CanIssue 0 t (f.s.toNat :: t.guardRegs) ∧ t.guardBeyond = false ∧ Claims.legalLanes t ∧
      Claims.ordinary t false ∧
      Claims.pathReady t ((mem t).pathOf t false pathSTG (Claims.overLanes t (Claims.laneEA t f))) ∧
      Claims.storesReady (mem t) 0 t f false 4 loc page ∧ Claims.storesRoom (mem t) 0 t loc) ∧
    ∃ loc page, let f : MV := ⟨1, 2, 1, 0, 0⟩
      (mem t).CanIssue 0 t (f.s.toNat :: t.guardRegs) ∧ Claims.ordinary t true ∧
      Claims.pathReady t ((mem t).pathOf t true pathSTG (Claims.overLanes t (Claims.laneEA t f))) ∧
      Claims.storesReady (mem t) 0 t f true 1 loc page ∧ Claims.storesRoom (mem t) 0 t loc := by
  refine ⟨⟨fun _ b => .virt 0 (0x1000 + 4 * b), fun _ b => some (line0.page (0x1000 + 4 * b)), (lane_can_issue _).1,
    by decide, by decide, by decide, by decide, ?_, by simp only [Claims.storesRoom]; decide⟩,
    fun _ b => .pool 0 0 (4 * b), fun _ _ => none, (lane_can_issue _).1, by decide, by decide, ?_,
    by simp only [Claims.storesRoom]; decide⟩ <;>
  · intro e he
    simp only [show laneTeam.issued = [(0, 0xFFFFFFFF)] by decide, List.mem_singleton] at he
    subst he
    exact ⟨by decide, by decide, by decide⟩

theorem witness_AtomicsAreSent : let f : AM := ⟨1, 6, 10, false, true, 0⟩
    ∀ t ∈ [memTeam, detTeam], (mem t).CanIssueScalar 0 t (Claims.amoFields 7 f) ∧ t.txstat.active = false ∧
    (mem t).Grants 0 t false .store 8 (t.sreg f.s.toNat) (.virt 0 0x1078) (some (line0.page 0x1078)) ∧
    (mem t).poisonLoc (.virt 0 0x1078) = false ∧ t.counter pathLDG < 255 ∧ (mem t).released 0 t = true ∧
    memTeam.buffers = false ∧ detTeam.buffers = true := by
  intro f t h
  simp only [List.mem_cons, List.not_mem_nil, or_false] at h
  rcases h with rfl | rfl <;>
    exact ⟨mem_can_issue _ _ (by decide), by decide, by decide, by decide, by decide, rfl, by decide, by decide⟩

/-- An AMOCAS of the team on its way. -/
def amo0 : Amo :=
  { team := 0, path := 0, op := 0, code := 7, d := 6, tag := 0, ea := 0x1078, operand := 0, other := 5, pc := 0
    user := true }

theorem witness_AtomicsArePerformed : let s : State := { mem memTeam with amos := [amo0] }
    s.amos[0]? = some amo0 ∧ s.team amo0.team = some memTeam ∧ Claims.amoMayAct s amo0 memTeam ∧
    s.destination amo0.team amo0.tag amo0.ea .store amo0.user = .here s (.virt 0 0x1078) ∧
    s.poisonLoc (.virt 0 0x1078) = false ∧ Tab.find s.relia.crcNext (memTeam.core.toNat / 64) ≠ some .failed ∧
    (Loc.virt 0 0x1078).inLine % 8 = 0 ∧ Claims.realByte (.virt 0 0x1078) ∧
    s.findWindow amo0.tag amo0.ea = none ∧ Tab.find s.lines (lineKey amo0.tag amo0.ea) = some line0 ∧
    grants line0.r line0.w line0.x line0.u .store amo0.user = true ∧ line0.pa / 2 ^ 52 = s.fabric.fmod.toNat ∧
    s.heldAgainst (some amo0.team) amo0.tag amo0.ea = false ∧ s.planesOf amo0.tag amo0.ea = [] ∧ amo0.ea % 8 = 0 :=
  ⟨rfl, rfl, by decide, rfl, by decide, by decide, by decide, show 0x1078 < 2 ^ 48 by decide, by decide, by decide,
    by decide, by decide, by decide, by decide, by decide⟩

theorem witness_ReductionsAreSent : let f : RD := ⟨1, 2, true, 10, 0⟩
    let t := laneTeam
    Claims.legalLanes t ∧ (mem t).CanIssueScalar 0 t (f.s.toNat :: t.guardRegs) ∧ t.guardBeyond = false ∧
    t.txstat.active = false ∧ t.issued ≠ [] ∧ t.counter pathDRN < 255 ∧
    (∀ p ∈ t.issued, t.readable [f.d.toNat] p.1 = none ∧ ∀ b, b < 32 → p.2.getLsbD b = true →
      (mem t).Grants 0 t false .store 4 (t.sreg f.s.toNat + BitVec.ofNat 64 (4 * (32 * p.1 + b)))
        (.virt 0 (0x1000 + 4 * b)) (some (line0.page (0x1000 + 4 * b)))) ∧
    (∀ p ∈ t.issued, ∀ b, b < 32 → p.2.getLsbD b = true →
      (mem t).Grants 0 t false .store 8 (t.sreg f.s.toNat) (.virt 0 0x1000) (some (line0.page 0x1000))) := by
  refine ⟨by decide, lane_can_issue _, by decide, by decide, by decide, by decide, ?_, ?_⟩ <;>
  · intro p hp
    simp only [show laneTeam.issued = [(0, 0xFFFFFFFF)] by decide, List.mem_singleton] at hp
    subst hp
    decide

/-- With no active lane the reduction has no issued pass. -/
theorem witness_ReductionsAreSent_none : let t : Team := { stagedTeam with mode := 0x10002 }
    Claims.legalLanes t ∧ t.guardBeyond = false ∧ t.issued = [] ∧
    (mem t).CanIssueScalar 0 t (10 :: t.guardRegs) :=
  ⟨by decide, by decide, by decide, mem_can_issue _ _ ⟨by decide, by decide, by decide, by decide⟩⟩

theorem witness_CacheControl : let f : CA := ⟨1, 71, 10, 0⟩
    let t := memTeam
    let ea := t.sreg f.s.toNat + t.src f.a
    ∀ l ∈ [line0, { line0 with dirty := true }], let s : State := { mem t with lines := [(32, l)] }
    s.MemoryWf ∧ s.CanIssueScalar 0 t [f.a.toNat, f.s.toNat] ∧ t.txstat.active = false ∧
    Claims.pathReady t (s.pathOf t false pathSTG [ea]) ∧ ea.toNat < 2 ^ 48 ∧
    s.findWindow (tagOf (t.asid.setWidth 16) ea.toNat) ea.toNat = none ∧
    Tab.find s.lines (lineKey (tagOf (t.asid.setWidth 16) ea.toNat) ea.toNat) = some l ∧
    grants l.r l.w l.x l.u .load (!t.sys) = true ∧
    s.lineDrained 0 t (.virt (tagOf (t.asid.setWidth 16) ea.toNat) (ea.toNat / 128 * 128)) = true ∧
    s.planesOf (tagOf (t.asid.setWidth 16) ea.toNat) ea.toNat = [] ∧ l.c = false ∧
    (∀ i, i < 4 → s.offlineAt (l.pa % 2 ^ 52 / 32 + i) = false) ∧ l.pa % 128 = 0 := by
  intro f t ea l h
  simp only [List.mem_cons, List.not_mem_nil, or_false] at h
  rcases h with rfl | rfl <;>
    exact ⟨⟨by decide, by decide⟩, mem_can_issue _ _ (by decide), by decide, by decide, by decide, by decide, by decide, by decide,
      by decide, by decide, by decide, by decide, by decide⟩

/-- The line of `memTeam` lies in a window. -/
theorem witness_CacheControl_window : let f : CA := ⟨1, 71, 10, 0⟩
    let t := memTeam
    let ea := t.sreg f.s.toNat + t.src f.a
    let w : Window :=
      { base := 0x1000, len := 512, off := 0, group := 0, tag := 0, stat := .standing, home := [(0, line0)] }
    let s : State := { mem t with gangs := [(0, { stagedGang with windows := [w], pools := [(0, {})] })] }
    s.MemoryWf ∧ s.CanIssueScalar 0 t [f.a.toNat, f.s.toNat] ∧ t.txstat.active = false ∧
    Claims.pathReady t (s.pathOf t false pathSTG [ea]) ∧ ea.toNat < 2 ^ 48 ∧
    s.findWindow (tagOf (t.asid.setWidth 16) ea.toNat) ea.toNat = some (0, w) ∧
    Tab.find w.home ((ea.toNat - w.base) / 128) = some line0 ∧ grants line0.r line0.w line0.x line0.u .load (!t.sys) = true ∧
    s.lineDrained 0 t (.pool 0 0 0) = true ∧ s.planesOf (tagOf (t.asid.setWidth 16) ea.toNat) ea.toNat = [] ∧
    line0.c = false ∧ Memory.wf (s.poolAt 0 0).mem = true ∧
    (∀ i, i < 4 → s.offlineAt (line0.pa % 2 ^ 52 / 32 + i) = false) ∧ line0.pa % 128 = 0 :=
  ⟨⟨by decide, by decide⟩, ⟨⟨rfl, rfl, by decide, by decide, by decide, rfl⟩, by decide, rfl⟩, by decide, by decide, by decide,
    by decide, by decide, by decide, by decide, by decide, by decide, by decide, by decide, by decide⟩
/-! ### Statements of the system family -/

/-- The staged team in system mode. -/
def sysTeam : Team := { memTeam with sys := true, saveptr := 0x1000 }

theorem sys_can_issue (uses : List Nat) : (mem sysTeam).CanIssueScalar 0 sysTeam uses :=
  mem_can_issue _ _ ⟨by decide, by decide, by decide, by simp [sysTeam, memTeam, withRegs, stagedTeam]⟩

theorem witness_SystemRegisterReads : let f : SYR := ⟨1, 63, 0x047⟩
    let g : SYR := ⟨1, 63, 0x04D⟩
    let h : SYR := ⟨1, 63, 0x051⟩
    ((mem sysTeam).CanIssueScalar 0 sysTeam [f.s.toNat] ∧ sysTeam.sys = true ∧
      (f.n.toNat, sysTeam.h.getD 7 0) ∈ Claims.teamReads sysTeam) ∧
    ((mem sysTeam).CanIssueScalar 0 sysTeam [g.s.toNat] ∧
      (g.n.toNat, ((mem sysTeam).core 0).brkcnt) ∈ Claims.coreReads (mem sysTeam) sysTeam ∧
      sysTeam.launch.det = false) ∧
    ((on stagedTeam).CanIssueScalar 0 stagedTeam [h.s.toNat] ∧ Claims.openToUser h.n.toNat ∧
      (h.n.toNat, stagedTeam.txabpc) ∈ Claims.teamReads stagedTeam) :=
  ⟨⟨sys_can_issue _, rfl, by decide⟩, ⟨sys_can_issue _, by decide, rfl⟩,
    ⟨staged_can_issue _, by decide, by decide⟩⟩

theorem witness_SystemRegisterWrites : let f : SYR := ⟨1, 63, 0x047⟩
    let g : SYR := ⟨1, 63, 0x030⟩
    let h : SYR := ⟨1, 63, 0x04D⟩
    (mem sysTeam).CanIssueScalar 0 sysTeam [f.s.toNat] ∧ sysTeam.sys = true ∧ sysTeam.drained = true ∧
    (f.n.toNat, 0xFFFFFFFFFFFFFFFF) ∈ Claims.teamWrites ++ Claims.coreWrites ∧
    (g.n.toNat, 0xFFFF) ∈ Claims.teamWrites ++ Claims.coreWrites ∧
    (h.n.toNat, 0xFFFFFFFFFFFFFFFF) ∈ Claims.teamWrites ++ Claims.coreWrites :=
  ⟨sys_can_issue _, rfl, by decide, by decide, by decide, by decide⟩

theorem witness_FlagRegisterWrites : ∀ f ∈ ([⟨1, 63, 0x010⟩, ⟨1, 63, 0x080⟩, ⟨1, 63, 0x011⟩] : List SYR),
    (on stagedTeam).CanIssueScalar 0 stagedTeam [f.s.toNat] ∧ f.n.toNat ∈ [0x010, 0x080, 0x011] :=
  fun _ h => ⟨staged_can_issue _, by revert h; revert ‹SYR›; decide⟩

theorem witness_ModeAndNop : (on stagedTeam).CanIssueScalar 0 stagedTeam [] ∧
    (on stagedTeam).CanIssueScalar 0 stagedTeam [63] := ⟨staged_can_issue _, staged_can_issue _⟩

theorem witness_ExitEndsTheTeam : (on stagedTeam).CanIssueScalar 0 stagedTeam [] ∧ stagedTeam.txstat.active = false ∧
    stagedTeam.reports = [] ∧ (on stagedTeam).gang stagedTeam.gangKey = some stagedGang :=
  ⟨staged_can_issue _, rfl, rfl, by decide⟩

/-- A load of the team is on its way on path LDG. -/
def loadingTeam : Team := { stagedTeam with paths := (Vector.replicate 8 []).set 0 [{ id := 0, done := false }], opSeq := 1 }

/-- A trap that waits for the paths. -/
def waitingTrap : TrapRec := { cause := 0x05, pc := 0, info := 0x1000 }

theorem witness_TrapsAreTaken : let t := stagedTeam
    (on t).team 0 = some t ∧ t.sys = false ∧ t.txstat.active = false ∧ t.openOp = none ∧ t.drained = true ∧
    (on t).CanIssueScalar 0 t [] ∧ waitingTrap.cause ≠ 0x0E :=
  ⟨rfl, rfl, rfl, rfl, by decide, staged_can_issue _, by decide⟩

theorem witness_TrapsWaitForThePaths : let t := loadingTeam
    let u : Team := { stagedTeam with trap := some waitingTrap }
    (t.sys = false ∧ t.txstat.active = false ∧ t.openOp = none ∧ t.drained = false ∧ waitingTrap.done = false) ∧
    u.sys = false ∧ u.txstat.active = false ∧ u.openOp = none ∧ u.drained = true ∧ u.trap = some waitingTrap ∧
    waitingTrap.cause ≠ 0x0E ∧ waitingTrap.cause ≠ 0x08 ∧ u.stat = .running :=
  ⟨⟨rfl, rfl, rfl, by decide, rfl⟩, rfl, rfl, rfl, by decide, rfl, by decide, by decide, rfl⟩

theorem witness_DoubleTrapsHaltTheTeam : (mem sysTeam).team 0 = some sysTeam ∧ sysTeam.sys = true ∧
    sysTeam.openOp = none ∧ (mem sysTeam).gang sysTeam.gangKey = some stagedGang ∧
    (mem sysTeam).grid sysTeam.seq = some stagedGrid ∧ stagedGrid.stat ≠ .retired ∧ stagedGrid.reason = 0 :=
  ⟨rfl, rfl, rfl, by decide, by decide, by decide, rfl⟩

theorem witness_EretResumes : let t : Team := { sysTeam with trapcause := 0x106 }
    (∀ u ∈ [t, sysTeam], u.sys = true ∧ u.saveinfo.getLsbD 2 = false) ∧ t.trapcause.getLsbD 8 = true ∧
    sysTeam.trapcause.getLsbD 8 = false ∧ (mem t).CanIssueScalar 0 t [] ∧ (mem sysTeam).CanIssueScalar 0 sysTeam [] :=
  ⟨by simp [sysTeam, memTeam, withRegs, stagedTeam], by decide, by decide, mem_can_issue _ _ (by decide), sys_can_issue _⟩

/-- Five lines from 0x1000 on hold the scalar block. -/
def restored (t : Team) : State :=
  { mem t with
    lines := (List.range 5).map fun n => (32 + n, { line0 with pa := 0x1000 + 128 * n })
    cores := [(0, { ckc := [32, 33, 34, 35, 36] })] }

theorem witness_EretRestores : let t : Team := { sysTeam with saveinfo := 4 }
    (restored t).CanIssueScalar 0 t [] ∧ t.sys = true ∧ t.saveinfo.getLsbD 2 = true ∧
    ∀ n, n < 74 → (restored t).Grants 0 t false .load 8 (t.saveptr + BitVec.ofNat 64 (8 * n))
      (.virt 0 (0x1000 + 8 * n)) (some ({ line0 with pa := 0x1000 + n / 16 * 128 }.page (0x1000 + 8 * n))) :=
  ⟨⟨⟨rfl, rfl, by decide, by decide, by decide, rfl⟩, by decide, rfl⟩, rfl, by decide, by decide⟩

theorem witness_HaltEndsThePresence : let t₁ : Team := { loadingTeam with sys := true }
    let t₂ : Team := { sysTeam with trapcause := 0x08 }
    let waits (t : Team) : List Nat := ((on t).core t.core.toNat).standing (t.seen ++ t.acquired)
    (t₁.sys = true ∧ t₁.allZero = false ∧ (on t₁).CanIssueScalar 0 t₁ []) ∧
    (t₂.sys = true ∧ t₂.allZero = true ∧ waits t₂ = [] ∧ t₂.trapcause.toNat % 256 = 0x08 ∧ t₂.saveinfo.getLsbD 2 = false ∧
      (on t₂).CanIssueScalar 0 t₂ []) ∧
    (sysTeam.allZero = true ∧ waits sysTeam = [] ∧ (on sysTeam).CanIssueScalar 0 sysTeam [] ∧ ¬ (sysTeam.trapcause.toNat % 256 = 0x08 ∧ sysTeam.saveinfo.getLsbD 2 = false)) :=
  ⟨⟨rfl, by decide, can_issue _ _ (by decide)⟩,
    ⟨rfl, by decide, by decide, by decide, by decide, can_issue _ _ (by decide)⟩,
    by decide, by decide, can_issue _ _ (by decide), by decide⟩

theorem witness_CountersAndFences : let f : SYC := ⟨1, 63, 7⟩
    let g : SYC := ⟨1, 63, 0⟩
    let h : SYF := ⟨1, 0, 2⟩
    let t := loadingTeam
    (t.counter ⟨f.p.toNat, f.p.isLt⟩ ≤ (t.sreg f.s.toNat).toNat) ∧
    ((t.sreg g.s.toNat).toNat < t.counter ⟨g.p.toNat, g.p.isLt⟩) ∧ t.launch.det = false ∧
    (on t).CanIssueScalar 0 t [f.s.toNat] ∧ (on t).CanIssueScalar 0 t [] ∧ (∀ a ∈ (on t).amos, a.team ≠ 0) ∧
    (on t).released 0 t = true ∧ h.k ≠ 1 ∧ 2 ≤ h.o.toNat ∧
    let s : State := { mem t with cores := [(0, { queue := [{ team := 0, path := 1, op := 0, loc := .virt 0 0x1000, bytes := [(0, 1)] }] })] }
    s.released 0 t = false ∧ s.CanIssueScalar 0 t [] :=
  ⟨by decide, by decide, rfl, can_issue _ _ (by decide), can_issue _ _ (by decide), by simp [on, State.reset], by decide,
    by decide, by decide, by decide, ⟨⟨rfl, rfl, by decide, by decide, by decide, rfl⟩, by decide, rfl⟩⟩

theorem witness_RmapReportsTheMap : let f : SYM := ⟨1, 63, 127⟩
    Claims.legalLanes sysTeam ∧ Claims.blockFits sysTeam (f.s.setWidth 7) ∧ sysTeam.sys = true ∧
    (mem sysTeam).CanIssueScalar 0 sysTeam (Claims.blockRange sysTeam f.s.toNat) :=
  ⟨by decide, by decide, rfl, sys_can_issue _⟩

/-- The staged team inside a transaction, and waiting where it stands. -/
def txTeam : Team :=
  { memTeam with txstat := { active := true }, tx := { parts := BitVec.ofNat 1024 (2 ^ 32 - 1), live := BitVec.ofNat 1024 (2 ^ 32 - 1) } }

theorem tx_can_issue (uses : List Nat) : (mem txTeam).CanIssueScalar 0 txTeam uses :=
  mem_can_issue _ _ ⟨by decide, by decide, by decide, by simp [txTeam, memTeam, withRegs, stagedTeam]⟩

theorem witness_PrivilegeAndTransactionMisuse : let t := stagedTeam
    let f : SYM := ⟨1, 63, 127⟩
    let g : SYR := ⟨1, 63, 0x020⟩
    let h : SYS := ⟨1, 63⟩
    (t.sys = false ∧ Claims.legalLanes t ∧ Claims.blockFits t (f.s.setWidth 7) ∧ ¬ Claims.openToUser g.n.toNat ∧
      g.n.toNat ∉ [0x010, 0x011, 0x080] ∧ t.guardBeyond = false ∧ t.txstat.active = false ∧
      Claims.blockFits t (h.s.setWidth 7) ∧ ∀ uses, (on t).CanIssueScalar 0 t uses) ∧
    (txTeam.txstat.active = true ∧ txTeam.guardBeyond = false ∧ txTeam.waitOnly = false ∧ txTeam.issued ≠ [] ∧
      ∀ uses, (mem txTeam).CanIssueScalar 0 txTeam uses) :=
  ⟨⟨rfl, by decide, by decide, by decide, by decide, by decide, rfl, by decide, staged_can_issue⟩, rfl, by decide, rfl,
    by decide, tx_can_issue⟩

theorem witness_ReservedWordsTrap : decode 0xFF000000 = .error .scheduleVersion ∧
    (on stagedTeam).CanIssueScalar 0 stagedTeam [] := ⟨rfl, staged_can_issue _⟩
/-! ### Statements of engines, launches and windows -/

/-- A team with one tile and a scratchpad; the pool holds a format block at offset 0, all of whose arrays lie in it. -/
def matTeam : Team :=
  { withRegs [(6, 0x8000000000000000), (7, 512)] with launch := { scratch := 65536, acc := 16384 } }

def matGang : Gang :=
  { stagedGang with pools := [(0, { mem := [(2, 16), (20, 128), (31, 128), (79, 128), (98, 1), (105, 16), (111, 128)] })] }

def mat (t : Team) : State := { on t with gangs := [(0, matGang)] }

theorem mat_can_issue (t : Team) (uses : List Nat) (h : t.mayIssue = true ∧ t.dueReport = none ∧
    t.pass < t.words ∧ uses.any (t.busy.contains ·) = false) : (mat t).CanIssueScalar 0 t uses :=
  ⟨⟨rfl, rfl, h.1, h.2.1, h.2.2.2, rfl⟩, h.2.2.1, rfl⟩

theorem ready_of (s : State) (t : Team) (m : MCheck) (h : (match m with
    | .ready e xs => s.viewPoison t xs == [] && !s.discards { e with poisonSeen := false }
    | _ => false) = true) :
    ∃ e xs, m = .ready e xs ∧ s.viewPoison t xs = [] ∧ s.discards { e with poisonSeen := false } = false := by
  match m, h with
  | .ready e xs, h => exact ⟨e, xs, rfl, by simpa using h⟩

/-- The same under DET. -/
def matDetTeam : Team := { matTeam with launch := { scratch := 65536, acc := 16384, det := true, qlog := 20 } }

theorem witness_MatrixCommandsEnterTheTable : let f : EN := ⟨1, 5, 6, 7, 0⟩
    (∀ t ∈ [matTeam, matDetTeam], (mat t).CanIssueScalar 0 t [f.a.toNat] ∧
      (mat t).CanIssueScalar 0 t [f.a.toNat, f.b.toNat, f.c.toNat] ∧ t.txstat.active = false ∧
      t.counter pathMTX < 255 ∧ t.counter pathDRN < 255) ∧
    matTeam.buffers = false ∧ matDetTeam.buffers = true ∧ ((mat matTeam).cluster 0).table.length < 16 ∧
    ∀ m ∈ [MKind.mma, .mmag, .mzero, .mldacc, .mdrain, .mdraina, .mdrainb, .mqnt],
      ∃ e xs, (mat matTeam).matrixCheck 0 matTeam m f = .ready e xs ∧ (mat matTeam).viewPoison matTeam xs = [] ∧
        (mat matTeam).discards { e with poisonSeen := false } = false := by
  refine ⟨?_, by decide, by decide, by decide, ?_⟩
  · intro t h
    simp only [List.mem_cons, List.not_mem_nil, or_false] at h
    rcases h with rfl | rfl <;>
      exact ⟨mat_can_issue _ _ (by decide), mat_can_issue _ _ (by decide), by decide, by decide, by decide⟩
  · intro m h
    simp only [List.mem_cons, List.not_mem_nil, or_false] at h
    rcases h with rfl | rfl | rfl | rfl | rfl | rfl | rfl | rfl <;> exact ready_of _ _ _ (by decide +kernel)

theorem witness_AccumulatorCommandChecks : let f : EN := ⟨1, 5, 6, 7, 0⟩
    let t := matTeam
    (t.sreg f.a.toNat).toNat < t.launch.acc / 16384 ∧
    stagedTeam.launch.acc / 16384 ≤ (stagedTeam.sreg f.a.toNat).toNat ∧
    ∀ p ∈ [(MKind.mldacc, Need.load, 512, 4), (.mdrain, .store, 512, 4), (.mdraina, .store, 512, 4), (.mdrainb, .store, 256, 2)],
      ∀ i, i < 64 → (mat t).extentStat 0 t
        { addr := ((t.sreg f.b.toNat).toNat + i * ((t.sreg f.c.toNat).toNat % 2 ^ 32)) % 2 ^ 64, len := p.2.2.1
          align := p.2.2.2, need := p.2.1, stride := (t.sreg f.c.toNat).toNat % 2 ^ 32 } = .ok :=
  ⟨by decide, by decide, by decide⟩

/-- A scratchpad whose first 256 bytes are a descriptor of one-byte elements, one dimension of one element. -/
def copyGang : Gang := { stagedGang with pools := [(0, { mem := [(8, 1)] })] }

def cpy (t : Team) : State := { on t with gangs := [(0, copyGang)] }

/-- s5: the descriptor; s6 and s7: source and destination in the scratchpad. -/
def copyTeam : Team :=
  { withRegs [(5, 0x8000000000000000), (6, 0x8000000000000400), (7, 0x800)] with launch := { scratch := 4096 } }

theorem cpy_can_issue (t : Team) (uses : List Nat) (h : t.mayIssue = true ∧ t.dueReport = none ∧
    t.pass < t.words ∧ uses.any (t.busy.contains ·) = false) : (cpy t).CanIssueScalar 0 t uses :=
  ⟨⟨rfl, rfl, h.1, h.2.1, h.2.2.2, rfl⟩, h.2.2.1, rfl⟩

def copyDetTeam : Team := { copyTeam with launch := { scratch := 4096, det := true, qlog := 20 } }

theorem witness_CopiesAreQueued : let f : EN := ⟨1, 5, 6, 7, 0⟩
    ∀ t ∈ [copyTeam, copyDetTeam],
    let s := cpy t
    let a := (t.sreg f.a.toNat).toNat
    let d := readDesc fun o n => s.viewLE t (a + o) n
    s.CanIssueScalar 0 t [f.a.toNat, f.b.toNat, f.c.toNat] ∧ t.txstat.active = false ∧ t.counter pathCPY < 255 ∧
    s.descStat 0 t a = .ok ∧
    copyFail .cpy d (t.sreg f.b.toNat).toNat (t.sreg f.c.toNat).toNat t.launch.scratch = none ∧
    s.viewPoison t [{ addr := a, len := 256, align := 1, need := .load }] = [] ∧ (s.cluster (t.core.toNat / 4)).copies.length < 16 ∧
    copyTeam.buffers = false ∧ copyDetTeam.buffers = true := by
  intro f t h
  simp only [List.mem_cons, List.not_mem_nil, or_false] at h
  rcases h with rfl | rfl <;>
    refine ⟨cpy_can_issue _ _ (by decide), by decide, by decide, by decide +kernel, by decide +kernel, by decide +kernel,
      by decide, by decide, by decide⟩

/-- An access that is made. -/
def isDone {α : Type} : AgentRes α → Bool
  | .done .. => true
  | _ => false

theorem agent_done {α : Type} (x : AgentRes α) (h : isDone x = true) : ∃ a s, x = .done a s := by
  cases x with
  | done a s => exact ⟨a, s, rfl⟩
  | _ => exact absurd h Bool.false_ne_true

theorem agent_written (x : AgentRes Unit) (h : isDone x = true) : ∃ s, x = .done () s :=
  (agent_done x h).elim fun _ h => h

/-- An access of the front end that is made, one after which `f` holds, and one that must wait. -/
def isOk {α : Type} : Front α → Bool
  | .ok .. => true
  | _ => false

def okThen {α : Type} (f : α → State → Bool) : Front α → Bool
  | .ok a s => f a s
  | _ => false

def isWait : Front Unit → Bool
  | .wait _ => true
  | _ => false

theorem front_ok {α : Type} (x : Front α) (h : isOk x = true) : ∃ a s, x = .ok a s := by
  cases x with
  | ok a s => exact ⟨a, s, rfl⟩
  | _ => exact absurd h Bool.false_ne_true

theorem front_then {α : Type} (f : α → State → Bool) (x : Front α) (h : okThen f x = true) :
    ∃ a s, x = .ok a s ∧ f a s = true := by
  cases x with
  | ok a s => exact ⟨a, s, rfl, h⟩
  | _ => exact absurd h Bool.false_ne_true

theorem front_wait (x : Front Unit) (h : isWait x = true) : ∃ s, x = .wait s := by
  cases x with
  | wait s => exact ⟨s, rfl⟩
  | _ => exact absurd h Bool.false_ne_true

theorem not_peer (x : LineAt) (h : (match x with
    | .peer .. => false
    | _ => true) = true) (s : State) (p : Page) : x ≠ .peer s p := by
  rintro rfl
  exact absurd h Bool.false_ne_true

/-- Queue 0 admits the device and has its ring at 0x10000; `tail` packets are in it. -/
def ringOn (t : Team) (tail : BitVec 32) : State :=
  let s := cpy t
  s.setQueue 0 { base := 0x10000, en := true, devok := true, tail := tail }

theorem witness_LaunchStatus : let f : EN := ⟨1, 5, 7, 6, 0⟩
    let t : Team := { copyTeam with s := copyTeam.s.setIfInBounds 7 0 }
    let deep : Team := { t with launch := { depth := 10 } }
    let far : Team := { copyTeam with s := copyTeam.s.setIfInBounds 7 64 }
    t.txstat.active = false ∧ deep.launch.depth = 10 ∧ t.launch.depth ≠ 10 ∧ copyDetTeam.buffers = true ∧
    (∀ n ∈ [0, 16], (ringOn t n).CanIssueScalar 0 t [f.a.toNat, f.b.toNat, f.c.toNat] ∧
      (ringOn t n).imageStat 0 t (t.sreg f.a.toNat).toNat = .ok) ∧ t.launch.det = false ∧
    63 < (far.sreg f.b.toNat).toNat ∧ (t.sreg f.b.toNat).toNat ≤ 63 ∧
    ((ringOn t 16).queue 0).slots ≤ ((ringOn t 16).queue 0).count ∧
    ((ringOn t 0).queue 0).count < ((ringOn t 0).queue 0).slots ∧
    let va := ((ringOn t 0).queue 0).slotAt ((ringOn t 0).queue 0).tail.toNat
    (ringOn t 0).slotBusy 0 = false ∧
    (∀ s₁ p, (ringOn t 0).reach (ringOn t 0).ioTlb (tagOf 0 va) va .store false true ≠ .peer s₁ p) ∧
    ∃ s₁, (ringOn t 0).agentWrite 0 va ((ringOn t 0).viewBytes t (t.sreg f.a.toNat).toNat 128) none none = .done () s₁ := by
  refine ⟨by decide, by decide, by decide, by decide, ?_, by decide, by decide, by decide, by decide, by decide,
    by decide, not_peer _ (by decide +kernel), agent_written _ (by decide +kernel)⟩
  intro n h
  simp only [List.mem_cons, List.not_mem_nil, or_false] at h
  rcases h with rfl | rfl <;> exact ⟨⟨⟨rfl, rfl, by decide, by decide, by decide, rfl⟩, by decide, rfl⟩, by decide +kernel⟩

/-- s5: base 0x20000; s6: offset 0; s7: length 512. -/
def winTeam : Team :=
  { withRegs [(5, 0x20000), (6, 0x8000000000000000), (7, 512)] with launch := { scratch := 4096 } }

/-- The machine of `on` with the page of the window in its TLB. -/
def onPage (t : Team) : State :=
  { on t with
    relia := { asidtab := 1 }
    tlb := [{ tlb := vaultTlb 0 0x20000, tag := 0
              page := { va := 0x20000, log2 := 16, pa := 0x20000, r := true, w := true, x := false, u := true, c := false } }] }

def win0 : Window := { base := 0x20000, len := 512, off := 0, group := 0, tag := 0, stat := .standing }

theorem witness_WindowsOpenAndClose : let f : EN := ⟨1, 5, 6, 7, 0⟩
    let t := winTeam
    let g : Gang := { stagedGang with windows := [win0] }
    let s : State := { onPage t with gangs := [(0, g)] }
    let mine (w : Window) : Bool := w.base == (t.sreg f.a.toNat).toNat && w.group == t.group && w.stat == .standing
    t.txstat.active = false ∧ (onPage t).gang t.gangKey = some stagedGang ∧
    (onPage t).CanIssueScalar 0 t [f.a.toNat, f.b.toNat, f.c.toNat] ∧
    (onPage t).pubCheck 0 t (t.sreg f.a.toNat).toNat ((t.sreg f.b.toNat).toNat % 2 ^ 63) (t.sreg f.c.toNat).toNat = .ok ∧
    t.launch.det = false ∧ s.gang t.gangKey = some g ∧ s.CanIssueScalar 0 t [f.a.toNat] ∧
    g.windows.find? mine = some win0 ∧ stagedGang.windows.any mine = false :=
  ⟨by decide, by decide, ⟨⟨rfl, rfl, by decide, by decide, by decide, rfl⟩, by decide, rfl⟩, by decide, by decide, by decide,
    ⟨⟨rfl, rfl, by decide, by decide, by decide, rfl⟩, by decide, rfl⟩, by decide, by decide⟩

/-- The same under DET. -/
theorem witness_WindowsOpenAndClose_det : let f : EN := ⟨1, 5, 6, 7, 0⟩
    let t : Team := { winTeam with launch := { scratch := 4096, det := true, qlog := 20 } }
    t.buffers = true ∧ (onPage t).gang t.gangKey = some stagedGang ∧ (onPage t).CanIssueScalar 0 t [f.a.toNat, f.b.toNat, f.c.toNat] ∧
    (onPage t).pubCheck 0 t (t.sreg f.a.toNat).toNat ((t.sreg f.b.toNat).toNat % 2 ^ 63) (t.sreg f.c.toNat).toNat = .ok :=
  ⟨by decide, by decide, ⟨⟨rfl, rfl, by decide, by decide, by decide, rfl⟩, by decide, rfl⟩, by decide⟩
/-! ### Barriers, phases, transactions -/

def cohortTeam : Team := { stagedTeam with launch := { cohort := true } }

theorem witness_BarrierArrivals : let t := cohortTeam
    (∀ i ∈ [(15 : BitVec 5), 16], Claims.mayArrive (on t) 0 t i) ∧ (on t).CanIssueScalar 0 t [] ∧ t.waitOnly = false ∧
    let u : Team := { t with pend := [(15, 0)] }
    let g : Gang := { stagedGang with barriers := stagedGang.barriers.set 15 { episode := 1 } }
    Claims.mayArrive { on u with gangs := [(0, g)] } 0 u 15 :=
  ⟨by decide +kernel, can_issue _ _ (by decide), by decide, by decide +kernel⟩

/-- A mark of episode 0 at barrier 3, waiting where it stands; one episode of the barrier has completed in `g`. -/
def markTeam : Team := { stagedTeam with pend := [(3, 0)], waitOnly := true }

theorem witness_BarrierWaits : let t := markTeam
    let f : SYB := ⟨1, 3⟩
    let g : Gang := { stagedGang with barriers := stagedGang.barriers.set 3 { episode := 1 } }
    let s₁ : State := { on t with gangs := [(0, g)] }
    t.launch.det = false ∧ t.txstat.active = false ∧ (f.i = 16 → t.launch.cohort = true) ∧
    Tab.find t.pend f.i.toNat = some 0 ∧ t.waitOnly = true ∧ s₁.frozenAt t 3 = false ∧ (on t).frozenAt t 3 = false ∧
    (on stagedTeam).frozenAt stagedTeam 3 = false ∧
    (s₁.CanIssueScalar 0 t [] ∧ 0 < ((s₁.settle t).barrierOf t f.i).episode) ∧
    ((on t).CanIssueScalar 0 t [] ∧ (((on t).settle t).barrierOf t f.i).episode ≤ 0) ∧
    (on t).CanIssueScalar 0 t [9] ∧ (on stagedTeam).CanIssueScalar 0 stagedTeam [9] ∧ Tab.find stagedTeam.pend 3 = none :=
  ⟨by decide, by decide, by decide, by decide, by decide, by decide, by decide, by decide,
    ⟨⟨⟨rfl, rfl, by decide, by decide, by decide, rfl⟩, by decide, rfl⟩, by decide +kernel⟩,
    ⟨can_issue _ _ (by decide), by decide +kernel⟩, can_issue _ _ (by decide), staged_can_issue _, by decide⟩

theorem witness_BarrierMisuseTraps : let t := stagedTeam
    let f : SYB := ⟨1, 16⟩
    let g : SYT := ⟨1, 9, 16⟩
    t.txstat.active = false ∧ f.i = 16 ∧ g.i = 16 ∧ t.launch.cohort = false ∧ t.waitOnly = false ∧
    (on t).CanIssueScalar 0 t [] ∧ (on t).CanIssueScalar 0 t [g.s.toNat] ∧
    Tab.find t.pend (⟨1, 3⟩ : SYB).i.toNat = none ∧
    let m : Team := { markTeam with waitOnly := false }
    m.txstat.active = false ∧ (on m).CanIssueScalar 0 m [] ∧ m.launch.det = false ∧
    ((3 : BitVec 5) = 16 → m.launch.cohort = true) ∧ (on m).frozenAt m 3 = false ∧ Tab.find m.pend 3 = some 0 ∧
    (((on m).settle m).barrierOf m 3).episode ≤ 0 ∧ m.waitOnly = false :=
  ⟨by decide, by decide, by decide, by decide, by decide, staged_can_issue _, staged_can_issue _, by decide, by decide,
    can_issue _ _ (by decide), by decide, by decide, by decide, by decide, by decide +kernel, by decide⟩

theorem witness_PhasesAdvance : let t := stagedTeam
    let u : Team := { stagedTeam with waitOnly := true, phWait := some 0 }
    let g : Gang := { stagedGang with phase := 1, phEpisode := 1 }
    let s : State := { on u with gangs := [(0, g)] }
    (t.launch.det = false ∧ (on t).CanIssueScalar 0 t [] ∧ t.txstat.active = false ∧
      (on t).gang t.gangKey = some stagedGang ∧ t.waitOnly = false ∧ stagedGang.phArrived = [] ∧
      (∀ n ∈ stagedGang.live, n ∈ stagedGang.phArrived ∨ n = t.num)) ∧
    (u.waitOnly = true ∧ u.phWait = some 0 ∧ s.CanIssueScalar 0 u [] ∧ s.gang u.gangKey = some g ∧ g.phArrived = [] ∧
      0 < g.phEpisode ∧ u.launch.phase = 0) ∧
    ((on u).CanIssueScalar 0 u [] ∧ (on u).gang u.gangKey = some stagedGang ∧ stagedGang.phEpisode ≤ 0) :=
  ⟨⟨by decide, staged_can_issue _, by decide, by decide, by decide, by decide, by decide⟩,
    ⟨by decide, by decide, ⟨⟨rfl, rfl, by decide, by decide, by decide, rfl⟩, by decide, rfl⟩, by decide, by decide, by decide, by decide⟩,
    can_issue _ _ (by decide), by decide, by decide⟩

/-- A gang of two live teams, of which the other has not arrived: the phase stands. -/
theorem witness_PhasesAdvance_first : let g : Gang := { stagedGang with live := [0, 1], remaining := [0, 1] }
    ({ on stagedTeam with gangs := [(0, g)] } : State).gang stagedTeam.gangKey = some g ∧
    (∃ n ∈ g.live, n ∉ g.phArrived) ∧ ¬ ∀ n ∈ g.live, n ∈ g.phArrived ∨ n = stagedTeam.num :=
  ⟨by decide, by decide, by decide⟩

theorem witness_TransactionInstructions : let t := stagedTeam
    let f : SYS := ⟨1, 63⟩
    (t.guardBeyond = false ∧ t.txstat.active = false ∧ t.sys = false ∧ Claims.legalLanes t ∧
      ∀ uses, (on t).CanIssueScalar 0 t uses) ∧
    (txTeam.txstat.active = true ∧ Claims.legalLanes txTeam ∧ Claims.blockFits txTeam (f.s.setWidth 7) ∧
      txTeam.counter pathTX < 255 ∧ txTeam.buffers = false ∧ ∀ uses, (mem txTeam).CanIssueScalar 0 txTeam uses) ∧
    let u : Team := { txTeam with launch := { det := true, qlog := 20 } }
    u.buffers = true ∧ u.txstat.active = true ∧ (on u).CanIssueScalar 0 u [63] :=
  ⟨⟨by decide, by decide, by decide, by decide, staged_can_issue⟩,
    ⟨by decide, by decide, by decide, by decide, by decide, tx_can_issue⟩, by decide, by decide,
    can_issue _ _ ⟨by decide, by decide, by decide, by decide⟩⟩

theorem witness_TransactionalAccesses : let t := txTeam
    let s := mem t
    let loc : Loc := .virt 0 0x1000
    let page := some (line0.page 0x1000)
    let tag := tagOf (t.asid.setWidth 16) (0x1000 : W64).toNat
    s.team 0 = some t ∧ t.launch.det = false ∧ t.txstat.esc = false ∧
    s.txReasons t 31 tag 0x1000 4 false loc page = 0 ∧ s.txReasons t 31 tag 0x1000 8 true loc page = 0 ∧
    s.txReasons t 31 tag 0x1000 4 true loc (some { line0.page 0x1000 with pa := 2 ^ 52 }) ≠ 0 :=
  ⟨rfl, by decide, by decide, by decide, by decide, by decide⟩
/-! ### Events of cores and of pre-emption -/

/-- A store of the team that waits to drain into the line of `mem`. -/
def entry0 : QEntry := { team := 0, path := 1, op := 0, loc := .virt 0 0x1000, bytes := [(127, 1)] }

def queued : State := { mem memTeam with cores := [(0, { queue := [entry0], fills := [32] })] }

theorem witness_CoreEvents : let s := on stagedTeam
    let r := (on stagedTeam).placeWord 0
    (∀ e ∈ s.teams, e.2.core = 0 → e.2.yielded = none ∧ s.waited e.2 < 48 ∧ e.2.pipe.log = [] ∧ e.2.atHead = true) ∧
    (∀ e ∈ r.teams, e.2.core = 0 → e.2.yielded = none ∧ r.waited e.2 < 48 ∧ e.2.pipe.log = [] ∧ e.2.atHead = true) ∧
    (0, stagedTeam) ∈ r.teams ∧
    stagedTeam.stat = .running ∧ r.ready 0 stagedTeam = true ∧
    (queued.core 0).fills.length = 1 ∧ 32 ∈ (queued.core 0).fills ∧ (Tab.find queued.lines 32).isSome = true ∧
    (queued.core 0).queue = entry0 :: [] ∧ entry0.sent = false ∧ entry0.loc = .virt 0 0x1000 ∧
    queued.homeModule 0 0x1000 entry0.page = queued.fabric.fmod.toNat ∧
    (Tab.find queued.lines (lineKey 0 0x1000)).isSome = true ∧ queued.entryBlocked 0 entry0 = false ∧
    (∀ b ∈ entry0.bytes, b.1 < 128) ∧ Tab.find queued.relia.crcNext 0 ≠ some .failed ∧ 16 ≤ (s.coreRail 0).phok :=
  ⟨by decide, by decide +kernel, by decide +kernel, by decide, by decide +kernel, by decide, by decide, by decide,
    by decide, by decide, by decide, by decide, by decide, by decide +kernel, by decide, by decide, by decide⟩

/-- A request of the host, pending; the machine of `on` with its gang as given. -/
def req0 : PreemptReq := { reason := .host, deadline := 0 }

def onGang (t : Team) (g : Gang) : State := { on t with gangs := [(0, g)] }

theorem witness_PreemptionEvents : let g : Gang := { stagedGang with preq := some req0 }
    let f : Gang := { stagedGang with preq := some { req0 with forced := true } }
    let s := onGang stagedTeam g
    let d : State := { on stagedTeam with grids := [(0, { stagedGrid with packet := { flags := 1 } })] }
    let c : State := { on stagedTeam with cores := [(0, { preemptlim := 0 })] }
    ((on stagedTeam).gang 0 = some stagedGang ∧ stagedGang.stat = .resident ∧ stagedGang.preq = none ∧
      (on stagedTeam).isDet stagedGang = false ∧ (on stagedTeam).limitOf stagedGang ≠ 0 ∧ d.gang 0 = some stagedGang ∧
      d.isDet stagedGang = true ∧ c.gang 0 = some stagedGang ∧ c.isDet stagedGang = false ∧ c.limitOf stagedGang = 0) ∧
    (s.gang 0 = some g ∧ g.stat = .resident ∧ g.preq = some req0 ∧ req0.taken = false ∧ req0.forced = false ∧
      s.isDet g = false ∧ s.defers 0 g = false ∧ (0, stagedTeam) ∈ s.teams ∧ s.team 0 = some stagedTeam ∧
      stagedTeam.gangKey = 0 ∧ stagedTeam.stat = .running) ∧
    (req0.deadline ≤ s.cycle.toNat ∧ (onGang txTeam g).team 0 = some txTeam ∧ (0, txTeam) ∈ (onGang txTeam g).teams ∧
      txTeam.gangKey = 0 ∧ txTeam.txstat.active = true) ∧
    ((onGang sysTeam f).team 0 = some sysTeam ∧ (onGang sysTeam f).gang sysTeam.gangKey = some f ∧
      f.preq = some { req0 with forced := true } ∧ sysTeam.sys = true ∧ sysTeam.inSave = false ∧
      sysTeam.stat = .running ∧ sysTeam.num ∉ req0.overrun ∧
      req0.deadline + req0.limit * 4000 ≤ (onGang sysTeam f).cycle.toNat) :=
  ⟨⟨by decide, by decide, by decide, by decide, by decide, by decide, by decide, by decide, by decide, by decide⟩,
    ⟨by decide, by decide, by decide, by decide, by decide, by decide, by decide, List.mem_singleton.mpr rfl, rfl, by decide, by decide⟩,
    ⟨by decide, rfl, List.mem_singleton.mpr rfl, by decide, by decide⟩,
    rfl, by decide, by decide, by decide, by decide, by decide, by decide, by decide⟩

theorem witness_PreemptionEvents_restore : let t : Team := { stagedTeam with stat := .saved }
    (on t).team 0 = some t ∧ (on t).gang t.gangKey = some stagedGang ∧ stagedGang.stat = .resident ∧ t.stat = .saved :=
  ⟨rfl, by decide, by decide, by decide⟩

theorem witness_PreemptionEvents_host : let s := on stagedTeam
    let v : W64 := 0
    s.gang 0 = some stagedGang ∧ stagedGang.seq = 0 ∧ stagedGang.stat = .resident ∧ stagedGang.preq = none ∧
    v.toNat / 2 ^ 13 % 8 = 0 ∧ s.registersOpen = true ∧
    (s.grids.find? fun e => e.2.number.toNat == v.toNat % 2 ^ 12 && e.2.stat == .started) = some (0, stagedGrid) ∧
    stagedGang.num = v.toNat / 2 ^ 16 :=
  ⟨by decide, by decide, by decide, by decide, by decide, by decide, by decide, by decide⟩

/-- A pass that needs a row, on a core without row lines. -/
def need0 : RowNeed := { dst := [1], gone := [], w := 0 }

def rowless (t : Team) : State := { on t with cycle := 4096, cores := [(0, { poolReg := 0 })] }

theorem witness_PreemptionEvents_breaker : let t : Team := { txTeam with rowWait := some need0 }
    let u : Team := { stagedTeam with rowWait := some need0 }
    let s := rowless t
    let r := rowless u
    ((0, t) ∈ s.teams ∧ s.team 0 = some t ∧ t.core = 0 ∧ t.stat = .running ∧ s.rowStalled t = true ∧
      t.txstat.active = true ∧ 4096 ≤ (s.cycle - (s.core 0).actedAt).toNat ∧
      (∀ e ∈ s.teams, e.2.core = 0 → e.2.launch.det = false)) ∧
    ((0, u) ∈ r.teams ∧ u.core = 0 ∧ u.stat = .running ∧ r.rowStalled u = true ∧
      (∀ e ∈ r.teams, e.2.txstat.active = false) ∧ r.lastPlaced 0 = some 0 ∧
      r.gang 0 = some stagedGang ∧ stagedGang.stat = .resident ∧ stagedGang.preq = none ∧ r.isDet stagedGang = false ∧
      4096 ≤ (r.cycle - (r.core 0).actedAt).toNat ∧ (∀ e ∈ r.teams, e.2.core = 0 → e.2.launch.det = false)) :=
  ⟨⟨List.mem_singleton.mpr rfl, rfl, by decide, by decide, by decide +kernel, by decide, by decide, by decide⟩,
    List.mem_singleton.mpr rfl, by decide, by decide, by decide +kernel, by decide, by decide, by decide, by decide,
    by decide, by decide, by decide, by decide⟩
/-! ### Events of the front end and of gangs -/

/-- Queue 0 with a packet of zeros at its head; the journal is on. -/
def packetState : State :=
  { State.reset.setQueue 0 { base := 0x10000, en := true, tail := 1 } with journal := { base := 0x40000, en := true } }

/-- The journal entry of a packet read from queue 0, as acceptance writes it. -/
def entryWritten (n : Nat) (a : List Byte × Bool) (s : State) : Front Unit :=
  let g := s.gridOf 0 (s.queue 0) n a.1 !a.2
  s.frontWrite 0 g.seq 1 (s.journal.entryAt g.seq) (journalEntry g g.journaled s.timeNs (shake256 a.1))

/-- Walks start at the empty second tier; only the page of the ring is in the TLB of its controller. -/
def unmappedJournal : State :=
  { packetState with
    relia := { asidtab := 0x10000000001 }
    tlb := [{ tlb := 256, tag := 0
              page := { va := 0x10000, log2 := 16, pa := 0x10000, r := true, w := true, x := false, u := true, c := false } }] }

/-- An accepted grid whose dependences are not yet evaluated. -/
def acceptedGrid : Grid := { seq := 1, number := 0, queue := 0, slot := 0 }

def acceptedState (q : Grid) : State :=
  { State.reset.setQueue 0 { base := 0x10000, en := true, blocked := some 1 } with grids := [(1, q)] }

theorem witness_FrontEndEvents_acceptance : let s := packetState
    s.security.bootFailed = false ∧ (s.queue 0).en = true ∧ (s.queue 0).head ≠ (s.queue 0).tail ∧
    s.queueBlocked (s.queue 0) = false ∧ s.journal.en = true ∧ s.journalBusy s.front.nextSeq = false ∧
    s.freeNumber = some 0 ∧ s.front.accepting = none ∧ ∃ a s₁,
      s.frontRead 0 none ((s.queue 0).slotAt (s.queue 0).head.toNat) 128 = .ok a s₁ ∧
      ∃ s₂, entryWritten 0 a s₁ = .ok () s₂ := by
  refine ⟨by decide, by decide, by decide, by decide, by decide, by decide, by decide +kernel, by decide, ?_⟩
  obtain ⟨a, s₁, h, ho⟩ := front_then (fun a s => isOk (entryWritten 0 a s))
    (packetState.frontRead 0 none 0x10000 128) (by decide +kernel)
  obtain ⟨_, s₂, h₂⟩ := front_ok _ ho
  exact ⟨a, s₁, h, s₂, h₂⟩

/-- The journal's page is not mapped, and its write waits for a fault handler. -/
theorem witness_FrontEndEvents_journal : let s := unmappedJournal
    s.security.bootFailed = false ∧ (s.queue 0).en = true ∧ (s.queue 0).head ≠ (s.queue 0).tail ∧
    s.queueBlocked (s.queue 0) = false ∧ s.journal.en = true ∧ s.journalBusy s.front.nextSeq = false ∧
    s.freeNumber = some 0 ∧ s.front.accepting = none ∧ ∃ a s₁,
      s.frontRead 0 none ((s.queue 0).slotAt (s.queue 0).head.toNat) 128 = .ok a s₁ ∧
      ∃ s₂, entryWritten 0 a s₁ = .wait s₂ := by
  refine ⟨by decide, by decide, by decide, by decide, by decide, by decide, by decide +kernel, by decide, ?_⟩
  obtain ⟨a, s₁, h, ho⟩ := front_then (fun a s => isWait (entryWritten 0 a s))
    (unmappedJournal.frontRead 0 none 0x10000 128) (by decide +kernel)
  obtain ⟨s₂, h₂⟩ := front_wait _ ho
  exact ⟨a, s₁, h, s₂, h₂⟩

theorem witness_FrontEndEvents : let q := acceptedGrid
    let m : Grid := { acceptedGrid with metAt := some 0 }
    let s := acceptedState q
    let u := acceptedState m
    (s.grids.map (·.1)).Nodup ∧ (∀ e ∈ s.grids, e.2.seq = e.1) ∧ s.grid 1 = some q ∧ q.stat = .accepted ∧ q.reason = 0 ∧
    q.dispatching = false ∧ q.parent = none ∧ q.metAt = none ∧ q.packet.dep0Addr = 0 ∧ q.packet.dep1Addr = 0 ∧
    (∀ e ∈ u.grids, e.2.starting = false) ∧ u.dispatchingCount < 8 ∧ u.nextHead = some m ∧ u.grid m.seq = some m ∧
    m.metAt = some 0 ∧ m.stat = .accepted ∧ m.dispatching = false :=
  ⟨by decide, by decide, by decide, by decide, by decide, by decide, by decide, by decide, by decide, by decide,
    by decide, by decide, by decide +kernel, by decide, by decide, by decide, by decide⟩

/-- A grid whose gangs have all ended, and whose parent stands. -/
def endedGrid : Grid := { seq := 2, number := 1, queue := 0, slot := 0, stat := .started, dispatched := true, reason := 4, parent := some 0 }

def endedState : State :=
  { State.reset with grids := [(0, stagedGrid), (2, endedGrid)], journal := { base := 0x40000, en := true } }

theorem witness_FrontEndEvents_retirement : let s := endedState
    s.grid 2 = some endedGrid ∧ endedGrid.seq = 2 ∧ s.mayRetire endedGrid = true ∧ endedGrid.parent = some 0 ∧
    endedGrid.reason ≠ 0 ∧ stagedGrid.stat ≠ .retired ∧
    ∃ a₁ s₁, s.retireJournal endedGrid = .ok a₁ s₁ ∧ ∃ a₂ s₂, s₁.retireReport endedGrid = .ok a₂ s₂ ∧
      ∃ a₃ s₃, s₂.retireWord endedGrid = .ok a₃ s₃ ∧ (s₃.grid 2).isSome = true ∧ s₃.grid 0 = some stagedGrid := by
  refine ⟨by decide, by decide, by decide +kernel, by decide, by decide, by decide, ?_⟩
  have h : ∀ x : Front Unit, (match x with
      | .ok _ s => (s.grid 2).isSome && s.grid 0 == some stagedGrid
      | _ => false) = true → ∃ s, x = .ok () s ∧ (s.grid 2).isSome = true ∧ s.grid 0 = some stagedGrid := by
    intro x h
    cases x with
    | ok a s =>
      simp only [Bool.and_eq_true, beq_iff_eq] at h
      exact ⟨s, rfl, h⟩
    | _ => exact absurd h Bool.false_ne_true
  obtain ⟨s₁, h₁, h₂⟩ := h (endedState.retireJournal endedGrid) (by decide +kernel)
  exact ⟨(), s₁, h₁, (), s₁, rfl, (), s₁, rfl, h₂⟩

/-- Gangs that fill clusters 2 to 15 of die 0: sixteen teams on each core. -/
def fillers : Tab Gang :=
  (List.range 14).map fun i => (100 + i,
    { seq := 0, num := 100 + i, stat := .placed, cluster := BitVec.ofNat 6 (2 + i)
      groups := [0, 1, 2, 3].map fun n => (n, List.range 16), coreOf := [(0, 0), (1, 1), (2, 2), (3, 3)]
      remaining := List.range 16 })

/-- A grid that dispatches its only gang. -/
def offering : Grid := { seq := 5, number := 5, queue := 0, slot := 0, stat := .started, dispatching := true }

def offerState : State := { State.reset with gangs := fillers, grids := [(5, offering)] }

/-- The same with a grid whose gang asks for accumulator bytes that its partition has not: every die refuses. -/
def hungry : Grid := { offering with packet := { accb := 65536 } }

def hungryState : State := { State.reset with gangs := fillers, grids := [(5, hungry)] }

/-- The same with the gang waiting after a refusal. -/
def waitState : State :=
  { offerState with gangs := fillers ++ [(gangKeyOf 5 0, { seq := 5, num := 0, waiting := true })] }

theorem witness_GangEvents_offers :
    ((offerState.offersDue.find? fun e => !e.2) = some (.next 5, false) ∧ offerState.grid 5 = some offering ∧
      (offerState.makeOffer (.next 5)).2 = true) ∧
    ((hungryState.offersDue.find? fun e => !e.2) = some (.next 5, false) ∧ hungryState.grid 5 = some hungry ∧
      (hungryState.makeOffer (.next 5)).2 = false) ∧
    (waitState.offersDue = [(.next 5, true)] ∧ (waitState.offersDue.any (·.2)) = true ∧
      (waitState.makeOffer (.next 5)).2 = true) ∧
    (offerState.offersDue.any (·.2)) = false :=
  ⟨⟨by decide +kernel, by decide, by decide +kernel⟩, ⟨by decide +kernel, by decide +kernel, by decide +kernel⟩,
    ⟨by decide +kernel, by decide +kernel, by decide +kernel⟩, by decide +kernel⟩

theorem witness_GangEvents_teams : let g : Gang := { stagedGang with stat := .placed }
    let s : State := { State.reset with gangs := [(0, g)], grids := [(0, stagedGrid)] }
    let f : Grid := { stagedGrid with reason := 4 }
    let u : State := { on stagedTeam with grids := [(0, f)] }
    let t : Team := { stagedTeam with stat := .exited }
    (s.gang 0 = some g ∧ s.grid g.seq = some stagedGrid ∧ g.stat = .placed ∧ s.teamsOf 0 = [] ∧ stagedGrid.reason = 0 ∧
      (g.groups.flatMap (·.2)).Nodup) ∧
    (u.team 0 = some stagedTeam ∧ u.grid stagedTeam.seq = some f ∧ f.reason ≠ 0 ∧ f.stat = .started ∧
      stagedTeam.stat = .running) ∧
    ((on t).team 0 = some t ∧ t.stat = .exited ∧ (on t).quietTeam 0 t = true ∧ (on t).gang t.gangKey = some stagedGang ∧
      stagedGang.stat = .resident ∧ (∀ n ∈ stagedGang.remaining, n = t.num) ∧ stagedGang.windows = []) :=
  ⟨⟨by decide, by decide, by decide, by decide, by decide, by decide⟩,
    ⟨rfl, by decide, by decide, by decide, by decide⟩, rfl, by decide, by decide, by decide, by decide, by decide, by decide⟩

/-- The vault above core 0 is at 100 degrees, a millisecond has passed, and a gang of priority 3 waits. -/
def hotState : State :=
  let s : State := { on stagedTeam with cycle := 4000000, gangs := (0, stagedGang) :: fillers }
  s.setDie 0 { s.die 0 with vaults := [(0, { temp := 400, step := 2 })] }

def waitingGrid : Grid := { offering with priority := 3 }

/-- A millisecond has passed, and a gang of priority 3 has waited, which cluster 0 of die 0 would take. -/
def tightState : State :=
  { onGang stagedTeam stagedGang with
    cycle := 4000000
    gangs := [(0, stagedGang), (gangKeyOf 5 0, { seq := 5, num := 0, waiting := true })]
    grids := [(0, stagedGrid), (5, waitingGrid)] }

theorem witness_GangEvents_migration : (hotState.die 0).migen = true ∧ (hotState.die 0).migrating = none ∧
    (hotState.firstMigration 0 (byAge (hotState.residentsOf 0))).isSome = true ∧
    hotState.gang 0 = some stagedGang ∧ stagedGang.stat = .resident ∧ stagedGang.preq = none :=
  ⟨by decide +kernel, by decide +kernel, by decide +kernel, by decide, by decide, by decide⟩

theorem witness_GangEvents_priority :
    ((tightState.gangs.filter fun e => tightState.longWait e.2).findSome? fun e =>
      tightState.victimFor 0 e.1 e.2) = some 0 ∧ tightState.gang 0 = some stagedGang ∧ stagedGang.stat = .resident ∧
    stagedGang.preq = none :=
  ⟨by decide +kernel, by decide, by decide, by decide⟩
/-! ### Events of engines -/

/-- A command of the staged team in the table. -/
def cmd0 (m : MKind) : MEntry :=
  { op := 0, team := 0, gang := 0, sys := false, kind := m, lead := 0, group := 0, tile := 0, addr := 0x8000000000000000
    stride := 512, fb := { a := { codes := 0x8000000000000000 }, b := { codes := 0x8000000000000000 } }
    index := List.replicate 64 0, current := true }

/-- The machine of `mat` with one command in the table of cluster 0. -/
def tabled (e : MEntry) : State := { mat matTeam with clusters := [(0, { table := [e] })] }

/-- A thread that loads, all of whose operands lie in the scratchpad, is ready where no window holds it. -/
theorem thread_ready (s : State) (h : Thread) (xs : List Extent)
    (h₁ : (xs.any fun x => x.addr.testBit 63 && s.poolHeld h.gang h.group (x.addr % 2 ^ 63) x.len) = false)
    (h₂ : globalLines xs = []) : s.threadReady h .load xs = .ready s [] := by
  simp only [State.threadReady, h₂, show ∀ b : Bool, (Need.load == Need.store && b) = false from fun b => rfl,
    Bool.or_false, h₁]
  rfl

theorem foldl_fixed {α β : Type} (f : α → β → α) (a : α) (h : ∀ b, f a b = a) : ∀ l : List β, l.foldl f a = a
  | [] => rfl
  | b :: l => by rw [List.foldl_cons, h, foldl_fixed f a h l]

theorem no_poison (s : State) (h : Thread) (xs : List Extent) (hp : ∀ l, s.poisonLoc l = false) :
    s.threadPoison h xs = [] := by
  simp only [State.threadPoison, poisonedReads, hp]
  have key : ∀ f : Tab Nat → Extent → Tab Nat, (∀ x, f [] x = []) → (xs.foldl f []).map (·.2) = [] :=
    fun f h => by rw [foldl_fixed f [] h]; rfl
  refine key _ fun x => foldl_fixed _ [] (fun n => ?_) _
  simp [Tab.find, show ∀ l : List Nat, l.find? (fun _ => false) = none from fun l => by simp]

theorem tabled_sound (e : MEntry) (l : Loc) : (tabled e).poisonLoc l = false := by
  cases l with
  | virt tag va => rfl
  | pool g grp off =>
    simp only [State.poisonLoc, State.poolAt, tabled, mat, matGang, Tab.find]
    split
    · rfl
    · rename_i h
      split at h
      · cases h
        simp only [Tab.find]
        split <;> rfl
      · cases h

theorem witness_MatrixEvents : let z := cmd0 .mzero
    let l := cmd0 .mldacc
    let p := cmd0 .mma
    let t := matTeam
    (mat t).grantable ((mat t).cluster 0).table [] ((mat t).cluster 0).table = [] ∧
    (∀ e ∈ [z, l, p], grantOrder ((tabled e).grantable [e] [] [e]) = [e] ∧ ((tabled e).cluster 0).table = [e] ∧
      (tabled e).team e.team = some t ∧ (tabled e).gang e.gang = some matGang ∧ e.tile < 2 ^ 20) ∧
    z.kind = .mzero ∧ l.kind = .mldacc ∧ p.kind.isPass = true ∧
    (tabled l).threadReady (l.thread t) .load l.rowExtents = .ready (tabled l) [] ∧
    (tabled l).threadPoison (l.thread t) l.rowExtents = [] ∧
    Tab.find (tabled l).relia.crcNext ((tabled l).dieOfTeam l.team) = none := by
  refine ⟨by decide, ?_, by decide, by decide, by decide, thread_ready _ _ _ (by decide +kernel) (by decide +kernel),
    no_poison _ _ _ (tabled_sound _), rfl⟩
  intro e h
  simp only [List.mem_cons, List.not_mem_nil, or_false] at h
  rcases h with rfl | rfl | rfl <;> exact ⟨by decide +kernel, by decide +kernel, rfl, by decide +kernel, by decide +kernel⟩

theorem witness_MatrixEvents_gather : let e := cmd0 .mmag
    let w : MEntry := { cmd0 .mma with stat := .waking }
    let t := matTeam
    (tabled e).mEntry 0 0 = some e ∧ e.stat = .waiting ∧ (tabled e).team e.team = some t ∧ e.kind = .mmag ∧
    e.gathered = false ∧ (tabled e).forkDone t.core.toNat e.team e.fork e.op = true ∧
    (tabled e).threadReady (e.thread t) .load (e.aRows.map (e.fb.a.kCodes e.fb.koff)) = .ready (tabled e) [] ∧
    (tabled e).threadPoison (e.thread t) (e.aRows.map (e.fb.a.kCodes e.fb.koff)) = [] ∧
    (tabled w).mEntry 0 0 = some w ∧ w.stat = .waking ∧
    Tab.find (tabled e).relia.crcNext ((tabled e).dieOfTeam e.team) = none :=
  ⟨by decide +kernel, rfl, rfl, rfl, rfl, by decide +kernel, thread_ready _ _ _ (by decide +kernel) (by decide +kernel),
    no_poison _ _ _ (tabled_sound _), by decide +kernel, rfl, rfl⟩

/-- An entry that has waited 2 µs, and one that has not. -/
theorem witness_MatrixEvents_starvation : let e := cmd0 .mma
    let s := tabled e
    let r : State := { tabled e with cycle := 16000 }
    s.mEntry 0 0 = some e ∧ r.mEntry 0 0 = some e ∧ e.stat = .waiting ∧ s.timeNs < e.since + 2000 ∧ e.since + 2000 ≤ r.timeNs :=
  ⟨by decide +kernel, by decide +kernel, rfl, by decide +kernel, by decide +kernel⟩

theorem witness_MatrixEvents_gating :
    (({ on stagedTeam with cores := [(0, { mgate := 0x80000000 })] } : State).core 0).mgate.getLsbD 31 = true ∧
    ((on stagedTeam).core 0).mgate.getLsbD 31 = false ∧
    let delay (s : State) : Nat := 4 * ((s.core 0).mgate.toNat % 2 ^ 20)
    let idle (s : State) : Nat := (s.cycle - (s.core 0).idleAt).toNat
    idle (on stagedTeam) < delay (on stagedTeam) ∧
    delay { on stagedTeam with cycle := 8000 } ≤ idle { on stagedTeam with cycle := 8000 } ∧
    ∀ e ∈ ((on stagedTeam).cluster 0).table, e.holds = true → 0 % 4 ∉ e.pair :=
  ⟨by decide, by decide, by decide, by decide, by decide⟩

theorem four_groups (f : NFmt) (key : W32) (codes : List (Nat × Nat)) (scale : Nat → FVal) (q : Nat) :
    ((fourGroups f key codes scale).getD q zeroGroup).1.terms.length ≤ 16 := by
  simp only [fourGroups, List.getD_eq_getElem?_getD, List.getElem?_map]
  cases h : (List.range 4)[q]? with
  | none => simp [zeroGroup]
  | some n => simp [portGroup, Nat.min_le_left]

theorem witness_EngineResults_verdict : let e : MEntry := { cmd0 .mma with stat := .running }
    let s := tabled e
    let t := matTeam
    s.mEntry 0 0 = some e ∧ s.team e.team = some t ∧ e.kind.isPass = true ∧ e.stat = .running ∧ e.tile < 2 ^ 20 ∧
    s.threadReady (e.thread t) .load e.reads = .ready s [] ∧ s.gang e.gang = some matGang ∧
    s.threadPoison (e.thread t) e.reads = [] ∧ e.poisonSeen = false ∧ t.launch.det = false ∧
    (∀ i q, (({ a := s.passA (e.thread t) e, b := s.passB (e.thread t) e } : PassData).rowGroup i q).1.terms.length ≤ 16) ∧
    e.replays = 0 ∧ Tab.find s.relia.crcNext (s.dieOfTeam e.team) = none := by
  refine ⟨by decide +kernel, rfl, by decide, rfl, by decide, thread_ready _ _ _ (by decide +kernel) (by decide +kernel),
    by decide +kernel, no_poison _ _ _ (tabled_sound _), rfl, rfl, ?_, rfl, rfl⟩
  intro i q
  simp only [PassData.rowGroup, State.passA, List.getD_eq_getElem?_getD (l := List.map _ _), List.getElem?_map]
  cases (({ cmd0 .mma with stat := .running } : MEntry).aRows.zipIdx)[i]? with
  | none => simp [zeroGroup]
  | some r => exact four_groups _ _ _ _ _

/-- A copy of one byte from 0x400 to 0x800 of the scratchpad, its burst under a current grant. -/
def copy0 : CopyCmd :=
  { op := 0, team := 0, gang := 0, group := 0, sys := false, user := true, kind := .cpy, src := 0x8000000000000400
    dst := 0x8000000000000800, desc := { ext := [1], sstride := [1], dstride := [1] }, asid := 0, pc := 0 }

def copying (c : CopyCmd) : State := { mat matTeam with clusters := [(0, { copies := [c], currents := [.copy] })] }

theorem witness_EngineResults_copy : let c := copy0
    let s := copying c
    let t := matTeam
    ((s.cluster 0).copies.find? fun x => !x.acted) = some c ∧ s.team c.team = some t ∧ s.copyCurrent 0 = true ∧
    s.forkDone t.core.toNat c.team c.fork c.op = true ∧ c.desc.total - c.next = 1 ∧ c.kind ≠ .cpyq ∧
    c.word = none ∧ c.latch = none ∧ c.away = [] ∧ c.awayBad = [] ∧ t.launch.det = false ∧ s.fabric.peerLines = [] ∧
    Tab.find s.relia.crcNext (t.core.toNat / 64) = none ∧ c.desc.size < 4 ∧
    (s.gang c.gang).isSome = true ∧
    s.copyReach c 0 (c.place c.src c.desc.sstride c.desc.sframe c.next).1 .load
      (c.place c.src c.desc.sstride c.desc.sframe c.next).2 = .here s (.pool 0 0 0x400) ∧
    s.poisonLoc (.pool 0 0 0x400) = false ∧
    s.copyReach c 0 (c.place c.dst c.desc.dstride c.desc.dframe c.next).1 .store
      (c.place c.dst c.desc.dstride c.desc.dframe c.next).2 = .here s (.pool 0 0 0x800) ∧
    (c.place c.dst c.desc.dstride c.desc.dframe c.next).2 / 4 * 4 = (c.place c.dst c.desc.dstride c.desc.dframe c.next).2 ∧
    (Loc.pool 0 0 0x800).inLine + 0 + c.desc.size ≤ 128 ∧ (Loc.pool 0 0 0x400).word.2 + c.desc.size ≤ 4 ∧ Claims.realByte (.pool 0 0 0x400) ∧ Claims.realByte (.pool 0 0 0x800) :=
  ⟨by decide +kernel, rfl, by decide, by decide, by decide +kernel, by decide, rfl, rfl, rfl, rfl, by decide, rfl, by decide,
    by decide, by decide +kernel, rfl, by decide +kernel, rfl, by decide +kernel, by decide, by decide, trivial, trivial⟩

/-- A reduction of one word at 0x1000. -/
def red0 : RedCmd := { op := 0, team := 0, sys := false, asid := 0, base := 0x1000, form := 1, lanes := [(0, 5)], pc := 0 }

theorem witness_EngineResults_completion : let e : MEntry := { cmd0 .mma with stat := .acted }
    let c : CopyCmd := { copy0 with acted := true }
    let r := red0
    let s : State := { mem memTeam with reds := [r] }
    ((tabled e).mEntry 0 0 = some e ∧ (tabled e).team e.team = some matTeam ∧ e.stat = .acted ∧
      (tabled e).outPending e.team e.op = false) ∧
    ((copying c).mEntry 0 0 = none ∧ (((copying c).cluster 0).copies.find? fun x => opName x.team x.op == 0) = some c ∧
      (copying c).team c.team = some matTeam ∧ c.acted = true ∧ c.stop = none ∧ (copying c).outPending c.team c.op = false) ∧
    (s.mEntry 0 0 = none ∧ ((s.cluster 0).copies.find? fun x => opName x.team x.op == 0) = none ∧
      (s.reds.find? fun x => opName x.team x.op == 0) = some r ∧ s.team r.team = some memTeam ∧ r.acted = false ∧
      s.forkDone memTeam.core.toNat r.team r.fork r.op = true ∧ r.steps = [(0x1000, 5)] ∧ r.failed = false ∧
      s.destinations r.team r.asid .store (!r.sys) r.pages [0x1000 / 128] = .ready s [] ∧
      Tab.find s.relia.crcNext (memTeam.core.toNat / 64) = none ∧
      s.locOf (tagOf r.asid 0x1000) 0x1000 = .virt 0 0x1000 ∧ s.poisonLoc (.virt 0 0x1000) = false ∧
      memTeam.launch.det = false ∧ 0x1000 < 2 ^ 48 ∧ (Loc.virt 0 0x1000).inLine + redWidth r.form ≤ 128 ∧
      ∀ i, i < redWidth r.form → s.locOf (tagOf r.asid 0x1000) (0x1000 + i) = (Loc.virt 0 0x1000).add i) :=
  ⟨⟨by decide +kernel, rfl, rfl, by decide⟩,
    ⟨by decide, by decide +kernel, rfl, rfl, rfl, by decide⟩,
    by decide, by decide, by decide, rfl, rfl, by decide, by decide, rfl, rfl, by decide, by decide, by decide, by decide,
    by decide, by decide, by decide⟩

/-- Completion in issue order: a younger command that stands behind. -/
theorem witness_EngineResults_order : let rest : List Flight := [{ id := 1, done := false }]
    (∀ f ∈ rest, f.id ≠ 0) ∧ ∀ f, rest.head? = some f → f.done = false := ⟨by decide, by simp⟩

theorem witness_TaperCheckFindsErrors :
    ((({ a := [], b := [] } : PassData).rowGroup 0 0).1.ints.length ≤ 16) ∧
    ∃ g : PortGroup, g.terms ≠ [] ∧
      ((({ a := [[(g, .fin false 1 0)]], b := [] } : PassData).rowGroup 0 0).1.ints.length ≤ 16) :=
  ⟨by decide, { fmt := .i8, terms := [{ code := 1, neg := false, port := 1 }], shift := 0 }, by decide, by decide⟩
/-! ### Events of teams -/

theorem witness_TeamEvents_phase : let t : Team := { stagedTeam with waitOnly := true, phWait := some 0 }
    let s := onGang t { stagedGang with phase := 1, phEpisode := 1 }
    s.team 0 = some t ∧ t.stat = .running ∧ t.sys = false ∧ t.waitOnly = true ∧ t.phWait.isSome = true ∧ t.trap = none ∧
    t.launch.det = false ∧ (s.modGang t.gangKey Gang.settlePhase).phaseReady t = true :=
  ⟨rfl, by decide, by decide, by decide, by decide, by decide, by decide, by decide +kernel⟩

theorem witness_TeamEvents_windows : let o : Window := { win0 with stat := .opening }
    let c : Window := { win0 with stat := .closing }
    let t : Team := { winTeam with await := some (.publish 0x20000) }
    let u : Team := { winTeam with await := some (.unpub 0x20000 c.tag) }
    let g : Gang := { stagedGang with windows := [o] }
    let h : Gang := { stagedGang with windows := [c] }
    let s : State := { onPage t with gangs := [(0, g)] }
    (s.team 0 = some t ∧ t.await = some (.publish 0x20000) ∧ s.gang t.gangKey = some g ∧
      (g.windows.find? fun w => w.base == 0x20000 && w.group == t.group && w.tag == tagOf (t.asid.setWidth 16) 0x20000 &&
        w.stat == .opening) = some o ∧
      (((s.evictRange o).keepPages o.tag o.base o.len (!t.sys)).windowHome (!t.sys) o
        (List.range (o.len / 128))).isSome = true) ∧
    ((onGang u h).gang 0 = some h ∧ h.stat = .resident ∧ h.remaining ≠ [] ∧
      (∃ e ∈ (onGang u h).teams, e.2.gangKey = 0 ∧ e.2.stat ≠ .saved ∧ e.2.stat ≠ .ended) ∧
      (h.windows.find? fun w => w.base == 0x20000 && w.stat == .closing) = some c ∧
      (onGang u h).ownerBusy 0 c = false ∧ (onGang u h).team 0 = some u ∧ u.gangKey = 0 ∧ u.await = some (.unpub 0x20000 c.tag)) :=
  ⟨⟨rfl, rfl, by decide, by decide, by decide +kernel⟩,
    by decide, by decide, by decide, ⟨_, List.mem_singleton.mpr rfl, by decide, by decide, by decide⟩, by decide,
    by decide +kernel, rfl, by decide, rfl⟩

/-- A commit request of a transaction with one read and one write. -/
def commit0 : Commit := { team := 0, cluster := 0, op := 0, d := 9, arrived := some 0 }

def commitTeam : Team :=
  { txTeam with
    await := some (.txend 9)
    tx := { txTeam.tx with
      reads := [{ lane := 0, tag := 0, va := 0x1000, value := 0, own := false }]
      writes := [{ lane := 1, tag := 0, va := 0x1001, value := 7 }] } }

theorem witness_TeamEvents_commit : let c := commit0
    let t := commitTeam
    let s : State := { mem t with commits := [c] }
    (s.commits.filter fun c => c.cluster == 0 && c.arrived.isSome).foldr (insertCommit s) [] = [c] ∧
    s.team c.team = some t ∧ s.presentLines c.team t t.tx.lines [] = .ready s [] ∧ s.losers c.team t [] = [] ∧
    t.launch.det = false ∧ Tab.find s.relia.crcNext (t.core.toNat / 64) ≠ some .failed ∧
    t.tx.live = t.tx.parts ∧ Claims.legalLanes t ∧ Claims.blockFits t (c.d.setWidth 7) ∧ t.txstat.reasons &&& 1 = 0 ∧
    ∃ w ∈ t.tx.writes, t.tx.live.getLsbD w.lane = true ∧ w.va < 2 ^ 48 ∧
      ∀ x ∈ t.tx.writes, x.va < 2 ^ 48 ∧ (s.locOf x.tag x.va = s.locOf w.tag w.va → x.value = w.value) :=
  ⟨by decide +kernel, rfl, by decide +kernel, by decide +kernel, by decide, by decide, rfl, by decide, by decide, by decide,
    { lane := 1, tag := 0, va := 0x1001, value := 7 }, List.mem_singleton.mpr rfl, by decide +kernel, by decide, by decide +kernel⟩

/-- A DET grid whose team is parked; `h` are its held operations. -/
def detGrid (serial : Bool) (h : List Held) : Grid :=
  { stagedGrid with packet := { flags := 1 }, serial := serial, held := h }

def parkedTeam : Team := { stagedTeam with launch := { det := true, qlog := 10 }, park := some .sync }

def detState (serial : Bool) (h : List Held) : State := { on parkedTeam with grids := [(0, detGrid serial h)] }

/-- A fence that waits for its slot. -/
def held0 : Held := { clock := 0, linear := 0, team := 0, instr := .exit ⟨1⟩ }

theorem witness_TeamEvents_boundary : let q := detGrid false [held0]
    let p := detGrid true [held0]
    let r := detGrid true []
    ((detState false [held0]).grid 0 = some q ∧ q.packet.flags.getLsbD 0 = true ∧ q.serial = false ∧
      (detState false [held0]).boundaryDue q = true ∧ (detState false [held0]).bufferedCount 0 = 0 ∧
      (detState false [held0]).quietGrid 0 = true ∧ (detState false [held0]).team 0 = some parkedTeam ∧ parkedTeam.seq = 0) ∧
    ((detState true [held0]).grid 0 = some p ∧ p.serial = true ∧ (detState true [held0]).quietGrid 0 = true ∧
      nextHeld p.held = some held0) ∧
    ((detState true []).grid 0 = some r ∧ r.held = [] ∧ (detState true []).quietGrid 0 = true ∧
      (∀ e ∈ (detState true []).gangs, e.2.preq = none) ∧ r.breaker = [] ∧ parkedTeam.park ≠ some .phase ∧ parkedTeam.phWait = none) :=
  ⟨⟨by decide +kernel, by decide, by decide, by decide +kernel, by decide +kernel, by decide +kernel, rfl, rfl⟩,
    ⟨by decide +kernel, rfl, by decide +kernel, by decide +kernel⟩,
    by decide +kernel, rfl, by decide +kernel, by decide, rfl, by decide, rfl⟩
/-! ### Events of memory, of power and of the package -/

def fault0 : Fault' :=
  { token := 7, tag := 0, line := 32, write := false, fetch := false, user := true, source := 0, team := some 0, grid := none }

theorem witness_MemoryEvents_registers : let s : State := { State.reset with relia := { faults := [fault0] } }
    let v : W64 := 0x100000007
    s.registersOpen = true ∧ s.relia.tlbiBusy = false ∧ (0 : W64).extractLsb' 0 2 ≠ 3 ∧
    (3 : W64).extractLsb' 0 2 = 3 ∧ v.toNat < 2 ^ 33 ∧
    (s.relia.faults.find? fun f => f.token == v.setWidth 32) = some fault0 ∧ s.staleFault fault0 = false ∧
    2 ^ 33 ≤ (0x200000000 : W64).toNat :=
  ⟨by decide, by decide, by decide, by decide, by decide, by decide, by decide, by decide⟩

/-- An invalidation of everything runs; `mark` entries had entered core 0's queue when it began. -/
def tlbiState (flush : Bool) (mark : Nat) : State :=
  { queued with relia := { tlbiBusy := true, tlbiScope := 2, tlbiFlush := flush, tlbiMark := [(0, mark)] } }

theorem witness_MemoryEvents_invalidation : (tlbiState true 1).relia.tlbiBusy = true ∧ (tlbiState true 1).tlbiWaits = true ∧
    (tlbiState true 0).tlbiWaits = false ∧ (tlbiState true 0).relia.tlbiFlush = true ∧
    (tlbiState false 0).tlbiWaits = false ∧ (tlbiState false 0).relia.tlbiFlush = false ∧
    let s : State := { queued with relia := { tlbiBusy := true, tlbiFlush := true } }
    s.tlbiWaits = false ∧ (Tab.find s.lines 0).isSome = false ∧
    ({ s with lines := [(0, { line0 with pa := 0 })] } : State).tlbiCovers (BitVec.ofNat 16 (0 / 2 ^ 41)) (0 % 2 ^ 41 * 128) = true ∧
    (Tab.find ({ s with lines := [(0, { line0 with pa := 0 })] } : State).lines 0).isSome = true :=
  ⟨by decide, by decide, by decide, by decide, by decide, by decide, by decide, by decide, by decide, by decide⟩

theorem witness_MemoryEvents_errors : let t := rowTeam
    (on t).siteExists (.row 0 1 5) = true ∧ ((on t).siteOf (.row 0 1 5)).1.isSome = true ∧ (on t).team 0 = some t ∧ (t.row (1 : BitVec 7).toNat (5 % 1024 / 32)).isSome = true ∧
    (on t).siteExists (.directory 3) = true ∧ (on t).relia.beacon.en = false ∧ hasMemory (32 * (2 ^ 32 - 1)) = true :=
  ⟨by decide, by decide, rfl, by decide, by decide, by decide, by decide⟩

/-- A walk for a load at 0x20000 of the team of `onPage`. -/
def walk0 : Walk := { tag := 0, line := 0x400, write := false, fetch := false, user := true, source := 0, team := some 0, grid := none }

theorem witness_MemoryEvents_walk : let s : State := { onPage winTeam with walks := [walk0] }
    let u : State := { onPage winTeam with walks := [{ walk0 with fetch := true }] }
    let f : State := { on winTeam with walks := [walk0] }
    let same : State := { f with relia := { faults := [{ fault0 with line := 0x400 }] } }
    let answer (s : State) (need : Need) : Xlat :=
      (s.translate (s.walkTlb walk0) walk0.tag (128 * walk0.line) need walk0.user walk0.ident).1
    (∃ p, answer s walk0.need = .page p ∧ p.pa / 2 ^ 52 = s.fabric.fmod.toNat) ∧
    Tab.find s.lines (lineKey walk0.tag (128 * walk0.line)) = none ∧ s.findWindow walk0.tag (128 * walk0.line) = none ∧
    Tab.find s.relia.crcNext ((walk0.team.map s.dieOfTeam).getD 4) = none ∧ s.MemoryWf ∧ walk0.line < 2 ^ 41 ∧
    answer u .fetch = .protect ∧ (∃ r, answer f walk0.need = .fault r ∧ f.relia.faults.any walk0.sameFault = false) ∧
    ∃ r, answer same walk0.need = .fault r ∧ same.relia.faults.any walk0.sameFault = true :=
  ⟨⟨_, rfl, by decide⟩, by decide, by decide, by decide, ⟨by decide, by decide⟩, by decide, by decide +kernel,
    ⟨0, by decide +kernel, by decide⟩, 0, by decide +kernel, by decide⟩

theorem witness_PowerEvents : let s := on stagedTeam
    let h := hotState
    let low : State := s.setDie 0 { s.die 0 with rails := (s.die 0).rails.set 0 { phok := 8 } }
    ([460] : List Int) ≠ [] ∧ (∃ v, h.vaultAbove 0 = some v) ∧ s.vaultAbove 255 = none ∧ s.grid 0 = some stagedGrid ∧
    (s.rail 0 3).phok ≠ 0 ∧ (low.rail 0 0).phok ≠ 0 ∧ (low.rail 0 0).phok - 1 < 8 ∧ low.gang 0 = some stagedGang ∧
    stagedGang.stat = .resident ∧ stagedGang.cluster.toNat / 16 = 0 ∧ stagedGang.cluster.toNat % 16 / 4 = 0 :=
  ⟨by decide, ⟨_, rfl⟩, by decide +kernel, by decide, by decide, by decide +kernel, by decide +kernel, by decide +kernel, by decide,
    by decide, by decide⟩

/-- What a die's caps and its power come to: a rail of the reset state; power above the limit, at it, and at 90 % of it. -/
theorem witness_PowerEvents_caps : let d := (on stagedTeam).die 0
    (∃ r, d.rails[3]? = some r) ∧ (if d.tripped = true then min d.hflim d.share / 2 else min d.hflim d.share) = 520 ∧
    (520 : BitVec 16).toNat ≤ 520 ∧ 520 < (521 : BitVec 16).toNat ∧
    let e : DieRegs := { d with pwr := 468, rails := d.rails.set 0 { qcap := some 240 } }
    10 * e.pwr ≤ 9 * 520 ∧ ∃ r, e.rails[0]? = some r ∧ r.qcap = some 240 :=
  ⟨⟨_, rfl⟩, by decide, by decide, by decide, by decide, _, rfl, rfl⟩

theorem witness_PowerEvents_current : let s := copying copy0
    let u : State := { s with clusters := [(0, { copies := [copy0] })] }
    let full : State := { u with clusters := [(0, { copies := [copy0], currents := List.replicate 40 (.vector 0) })] }
    (u.currentBudget 0 < full.heldCurrent 0 + 4) ∧ .copy ∉ (u.cluster 0).currents ∧ u.wantsCurrent 0 .copy = true ∧
    u.heldCurrent 0 + 4 ≤ u.currentBudget 0 ∧ (∀ op, CurrentWork.copy ≠ .pass op) ∧
    (false && s.wantsCurrent 0 .copy && decide (s.heldCurrent 0 ≤ s.currentBudget 0)) = false ∧
    (1199 < 1200 ∨ 2400 < 1199) ∧ 1200 ≤ 2400 :=
  ⟨by decide +kernel, by decide, by decide, by decide +kernel, by simp, by decide, by decide, by decide⟩

theorem agent_refused {α : Type} (x : AgentRes α) (h : (match x with
    | .refused => true
    | _ => false) = true) : x = .refused := by
  cases x with
  | refused => rfl
  | _ => exact absurd h Bool.false_ne_true

theorem report_whole (x : Report) (h : (match x with
    | .whole _ => true
    | _ => false) = true) : ∃ s, x = .whole s := by
  cases x with
  | whole s => exact ⟨s, rfl⟩
  | _ => exact absurd h Bool.false_ne_true

theorem report_wait (x : Report) (h : (match x with
    | .wait _ => true
    | _ => false) = true) : ∃ s, x = .wait s := by
  cases x with
  | wait s => exact ⟨s, rfl⟩
  | _ => exact absurd h Bool.false_ne_true

theorem done_then {α : Type} (f : State → Bool) (x : AgentRes α) (h : (match x with
    | .done _ s => f s
    | _ => false) = true) : ∃ a s, x = .done a s ∧ f s = true := by
  cases x with
  | done a s => exact ⟨a, s, rfl, h⟩
  | _ => exact absurd h Bool.false_ne_true

theorem report_refused (x : Report) (h : (match x with
    | .refused _ => true
    | _ => false) = true) : ∃ s, x = .refused s := by
  cases x with
  | refused s => exact ⟨s, rfl⟩
  | _ => exact absurd h Bool.false_ne_true

theorem witness_PackageEvents : let s := State.reset
    let far := 2 ^ 38
    let sound (s : State) : Bool := Tab.find s.relia.crcNext 4 == none
    s.security.bootFailed = false ∧ s.registersOpen = true ∧ s.hostWriting = false ∧ 4 % 8 ≠ 0 ∧
    (leBytes 8 0).length = 8 ∧ 0x5FFFF8 % 8 = 0 ∧ 0x5FFFF8 < 0x600000 ∧ 0x600000 ≤ 0x1FFFFFF8 ∧ 0x1FFFFFF8 < 0x20000000 ∧
    s.apertureAddr true 0x1000 = some 0x1000 ∧ (∃ a s₁, s.agentRead 0 0x1000 8 = .done a s₁ ∧ sound s₁ = true) ∧
    s.writeOf .host 0 0x1000 = none ∧ 0x1000 % 128 + (leBytes 8 5).length ≤ 128 ∧
    (∃ a s₁, s.agentWrite 0 0x1000 (leBytes 8 5) none (some s.front.nextWrite) = .done a s₁ ∧ sound s₁ = true) ∧
    s.agentRead 0 far 8 = .refused ∧ { s with hostPort := { wbbase := 0x4000000000 } }.apertureAddr true 0 = some far :=
  ⟨by decide, by decide, by decide, by decide, by decide, by decide, by decide, by decide, by decide, by decide,
    done_then _ _ (by decide +kernel), by decide, by decide, done_then _ _ (by decide +kernel),
    agent_refused _ (by decide +kernel), by decide⟩

/-- A write of the host to a peer is on its way: its later reads wait. -/
theorem witness_PackageEvents_waits : let s : State := { State.reset with hostPort := { pending := some (true, 0x1000, [0]) } }
    s.hostWriting = true := by decide

/-- A boot stage whose signature has no byte. -/
def badStage : StageImage := { stage := 0, version := 0, key := [], image := [], signature := [] }

theorem witness_PackageEvents_boot : [badStage] = [] ++ badStage :: [] ∧ (∀ y ∈ ([] : List StageImage), stageVerifies y = true) ∧
    stageVerifies badStage = false := ⟨rfl, by simp, by simp [stageVerifies, badStage]⟩

theorem witness_PackageEvents_attestation : let s : State := { State.reset with security := { busy := true, jobBuf := 0x2000 } }
    let u : State := { State.reset with security := { busy := true, jobBuf := 0x4000000000 } }
    let r := s.security.report
    State.reset.security.busy = false ∧ s.security.busy = true ∧
    (∃ s₁, s.writeReport 4 (s.security.jobBuf.toNat % 2 ^ 48) r = .whole s₁) ∧
    (∃ s₁, (match s.writeReport 4 (s.security.jobBuf.toNat % 2 ^ 48) r with
      | .whole s₁ => s₁.writeReport 10 (s.security.jobBuf.toNat % 2 ^ 48 + 0x200) (signature r)
      | x => x) = .whole s₁) ∧
    (∃ s₁, u.writeReport 4 (u.security.jobBuf.toNat % 2 ^ 48) u.security.report = .refused s₁) ∧
    let v : State := { s with fabric := { planes := [(vkey 0 0x2000 / 512, [1])] } }
    ∃ s₁, v.writeReport 4 (v.security.jobBuf.toNat % 2 ^ 48) v.security.report = .wait s₁ :=
  ⟨by decide, by decide, report_whole _ (by decide +kernel), report_whole _ (by decide +kernel),
    report_refused _ (by decide +kernel), report_wait _ (by decide +kernel)⟩
/-! ### Events of the fabric, and the step -/

/-- A line fill from module 3, sent on plane 1. -/
def fillTxn : OutTxn :=
  { dest := 3, va := 0x800000000000, cls := 2, plane := some 1, team := none, grid := none, op := 0
    what := .fill { va := 0x800000000000, log2 := 16, pa := 3 * 2 ^ 52, r := true, w := true, x := false, u := true, c := false } }

def heldWrite0 : HeldWrite := { src := 3, stamp := 0, va := 0x800000000000, op := .store [(0, 5)] }

/-- Page 0x800000000000 lies here; plane 1 holds copies of its first region. -/
def homeState : State :=
  { onPage stagedTeam with
    tlb := [{ tlb := vaultTlb 0 0x800000000000, tag := 0
              page := { va := 0x800000000000, log2 := 16, pa := 0x20000, r := true, w := true, x := false, u := true, c := false } }] }

theorem witness_PeerEvents : let s : State := { State.reset with fabric := { out := [fillTxn], deadModules := [9] } }
    let c : State := { State.reset with lines := [(8, { line0 with pa := 3 * 2 ^ 52 })] }
    let region := vkey 0 0x800000000000 / 512
    let v : State := { homeState with fabric := { planes := [(region, [1])], invals := [⟨1, region, true⟩] } }
    let w : State := { v with fabric := { v.fabric with heldWrites := [heldWrite0] } }
    let bytes : List (Nat × Byte) := [(0, 5), (127, 6)]
    (s.fabric.out[0]? = some fillTxn ∧ fillTxn.plane.isSome = true ∧ fillTxn.stale = false ∧
      sentBefore fillTxn (s.fabric.out.take 0) = false ∧ sentBefore fillTxn ([fillTxn, fillTxn].take 1) = true ∧ fillTxn.dest.toNat ∉ s.fabric.deadModules ∧
      Tab.find s.lines (lineKey 0 fillTxn.va) = none ∧ fillTxn.va < 2 ^ 48 ∧ fillTxn.va % 128 = 0) ∧
    ((3 : BitVec 12).toNat ∉ homeState.fabric.deadModules ∧ homeState.peerBlocked 0x800000000000 (.store bytes) = false ∧
      (∀ x ∈ homeState.fabric.heldWrites, x.src = 3 → x.va / 512 ≠ 0x800000000000 / 512) ∧
      (∃ s₁ loc, homeState.reach (vaultTlb 0 0x800000000000) 0 0x800000000000 .store false false = .ready s₁ loc ∧
        s₁.planesOf 0 0x800000000000 = [] ∧ s₁.fabric.undobase.getLsbD 0 = false ∧ Claims.realByte loc) ∧
      (bytes.map (·.1)).Nodup ∧ ∀ b ∈ bytes, b.1 < 128) ∧
    (v.peerBlocked 0x800000000000 (.store bytes) = false ∧ v.fabric.heldWrites = [] ∧
      ∃ s₁ loc, v.reach (vaultTlb 0 0x800000000000) 0 0x800000000000 .store false false = .ready s₁ loc ∧
        s₁.planesOf 0 0x800000000000 ≠ []) ∧
    (9 : BitVec 12).toNat ∈ s.fabric.deadModules ∧
    (Tab.find c.lines 8 = some { line0 with pa := 3 * 2 ^ 52 } ∧ 8 / 4 = 2 ∧ 3 * 2 ^ 52 / 2 ^ 52 ≠ c.fabric.fmod.toNat) ∧
    (homeState.fabric.heldWrites = [] ∧ (homeState.fabric.planes.map (·.1)).Nodup) ∧
    State.reset.invalSent 1 region = false ∧ w.invalSent (1 : BitVec 6).toNat region = true ∧
    (v.invalSent (1 : BitVec 6).toNat region = true ∧ v.fabric.heldWrites = [] ∧ (v.fabric.planes.map (·.1)).Nodup) ∧
    (w.fabric.heldWrites = [heldWrite0] ∧ vkey 0 heldWrite0.va / 512 = region ∧ (w.fabric.planes.map (·.1)).Nodup ∧
      ∀ n ∈ w.planesOf 0 heldWrite0.va, n = (1 : BitVec 6).toNat) :=
  ⟨⟨rfl, by decide, by decide, by decide, by decide, by decide, by decide, by decide, by decide⟩,
    ⟨by decide, by decide +kernel, by decide, ⟨_, _, rfl, by decide +kernel, by decide +kernel, by show _ < _; decide +kernel⟩, by decide, by decide⟩,
    ⟨by decide +kernel, rfl, _, _, rfl, by decide +kernel⟩,
    by decide, ⟨by decide, by decide, by decide⟩, ⟨by decide, by decide⟩, by decide, by decide,
    ⟨by decide, by decide, by decide⟩, by decide, rfl, by decide, by decide +kernel⟩

theorem witness_ModuleEvents_routes : let s := State.reset
    let r : State := { s with fabric := { routes := [(5, 0x8000000000000001)], deadModules := [5] } }
    let u : State := { s with fabric := { out := [{ fillTxn with plane := none }] } }
    let d : State := { on stagedTeam with
      lines := [(8, { line0 with pa := 3 * 2 ^ 52 })], grids := [(0, { stagedGrid with fabricSince := some 4 })] }
    s.registersOpen = true ∧ (0x8000000000000000 : W64).getLsbD 63 = true ∧ (s.route 5).getLsbD 63 = false ∧
    (r.route 5).getLsbD 63 = true ∧
    (u.usable 3 = [] ∧ ∃ x ∈ u.fabric.out, x.dest = 3 ∧ x.plane = none) ∧ (5 : BitVec 12).toNat ∈ r.fabric.deadModules ∧
    ((3 : BitVec 12).toNat ∉ d.fabric.deadModules ∧ 3 ≠ d.fabric.fmod ∧ (∀ x ∈ d.fabric.out, x.dest ≠ 3) ∧
      d.relia.beacon.en = false ∧ d.fabric.undobase.getLsbD 0 = false ∧
      Tab.find d.lines 8 = some { line0 with pa := 3 * 2 ^ 52 } ∧ 3 * 2 ^ 52 / 2 ^ 52 = 3 ∧
      d.grid 0 = some { stagedGrid with fabricSince := some 4 } ∧ stagedGrid.stat ≠ .retired ∧ stagedGrid.reason = 0 ∧
      (4 : BitVec 32).toNat ≤ 4) ∧
    let m : State := { d with fabric := { undobase := 1 } }
    (3 : BitVec 12).toNat ∉ m.fabric.deadModules ∧ 3 ≠ m.fabric.fmod ∧ (∀ x ∈ m.fabric.out, x.dest ≠ 3) ∧
    m.relia.beacon.en = false ∧ m.fabric.undobase.getLsbD 0 = true ∧ m.fabric.oldest.toNat ≤ (4 : BitVec 32).toNat :=
  ⟨by decide, by decide, by decide, by decide, ⟨by decide +kernel, _, List.mem_singleton.mpr rfl, by decide, by decide⟩,
    by decide, ⟨by decide, by decide, by decide, by decide, by decide, by decide, by decide, by decide, by decide, by decide,
      by decide⟩, by decide, by decide, by decide, by decide, by decide, by decide⟩

theorem witness_ModuleEvents_boundary : let s : State := { State.reset with fabric := { boundaries := [1], out := [fillTxn] } }
    let u : State := { State.reset with fabric := { boundaries := [1] } }
    let z : State := { State.reset with fabric := { period := 0 } }
    z.fabric.period = 0 ∧ u.fabric.period ≠ 0 ∧ z.fabric.boundaries = [] ∧ s.fabric.boundaries = 1 :: [] ∧ (∃ x ∈ s.fabric.out, x.plane.isSome = true ∧ x.stamp = 1 - 1) ∧
    u.fabric.boundaries = 1 :: [] ∧ ∀ x ∈ u.fabric.out, x.plane.isSome = true → x.stamp ≠ 1 - 1 :=
  ⟨rfl, by decide, rfl, rfl, ⟨_, List.mem_singleton.mpr rfl, by decide, by decide⟩, rfl, by simp⟩

/-- Port 35 with lanes as given. -/
def ported (a b : FLane) : State :=
  { State.reset with
    lines := [(8, { line0 with pa := 3 * 2 ^ 52, plane := some 35 })]
    fabric := { ports := (Vector.replicate 36 {}).set 35 { lane0 := a, lane1 := b } } }

theorem witness_ModuleEvents_ports : let ok : FLane := { margin := 100, ok := true }
    let weak : FLane := { margin := 0, ok := true }
    let back : FLane := { margin := 40, retraining := true }
    35 < 36 ∧ ((ported ok ok).port 35).up = true ∧ ((ported {} {}).port 35).up = false ∧
    (∀ x ∈ (ported ok ok).fabric.out, x.plane.isSome = true) ∧ (ported ok ok).fabric.acks = [] ∧ (∀ i ∈ (ported ok ok).fabric.invals, i.sent = true) ∧
    ((ported weak ok).port 35).weak = true ∧
    ((ported ok ok).port 35).weak = false ∧ (((ported ok {}).port 35).lane false).ok = true ∧
    (((ported ok {}).port 35).lane (!false)).ok = false ∧ (ported ok {}).relia.beacon.en = false ∧
    Tab.find (ported ok {}).lines 8 = some { line0 with pa := 3 * 2 ^ 52, plane := some 35 } ∧
    3 * 2 ^ 52 / 2 ^ 52 ≠ (ported ok {}).fabric.fmod.toNat ∧ (((ported ok back).port 35).lane true).retraining = true ∧
    ((ported ok back).port 35).warnt ≤ (((ported ok back).port 35).lane true).margin :=
  ⟨by decide, by decide, by decide, by decide, by decide, by decide, by decide, by decide, by decide, by decide, by decide,
    by decide, by decide, by decide, by decide⟩

/-- A fetched NOP, and a fetched word that is reserved. -/
theorem witness_StepRunsTheDecodedInstruction : let s := (on stagedTeam).placeWord 0x40000000
    let r := (on stagedTeam).placeWord 0xC0000000
    s.agenda = [] ∧ s.cur = some 0 ∧ s.team 0 = some stagedTeam ∧ stagedTeam.mayIssue = true ∧
    s.preemptDue stagedTeam = false ∧ stagedTeam.dueReport = none ∧ s.standsBack 0 stagedTeam = false ∧ s.fabric.heldWrites = [] ∧
    (match s.fetch 0 stagedTeam with
      | .word w => w == 0x40000000
      | _ => false) = true ∧
    (match r.fetch 0 stagedTeam with
      | .word w => w == 0xC0000000
      | _ => false) = true ∧ decode 0x40000000 = .ok (.nop { sv := 1 }) ∧ decode 0xC0000000 = .error .scheduleVersion ∧
    Tab.find s.relia.crcNext 0 = none ∧
    (let far := { stagedTeam with pc := 512 }
     let q : State := (on far).placeWord 0x40000000
     ({ q with relia := { q.relia with crcNext := [(0, .failed)] } }.crossing 0 (tagOf 0 512) 512).1 = true) :=
  ⟨by decide +kernel, by decide +kernel, by decide +kernel, by decide, by decide +kernel, by decide, by decide +kernel,
    by decide, by decide +kernel, by decide +kernel, rfl, rfl, by decide +kernel, by decide +kernel⟩

theorem witness_NopOnlyRetires : (on stagedTeam).CanIssueScalar 0 stagedTeam [] ∧ stagedTeam.sys = false :=
  ⟨staged_can_issue _, rfl⟩

theorem witness_DecodingInvertsEncoding : let i : Instr := .sadd ⟨1, 5, 6, 64⟩
    encode i = some 0x410A1A00 ∧ WellFormed i = true ∧ decode 0x410A1A00 = .ok i := ⟨rfl, by decide, rfl⟩

/-- A step from a state with a byte in each memory answers a next state. -/
theorem witness_StepKeepsMemoryCanonical :
    let s : State := { (on stagedTeam).placeWord 0x40000000 with phys := [(0, 1)] }
    s.MemoryWf ∧ s.vmem ≠ [] ∧ (match step s with
      | .next _ => true
      | _ => false) = true :=
  ⟨⟨by decide, by decide +kernel⟩, by decide +kernel, by decide +kernel⟩
end
end Sys2Proof.Tests
end

section
/-! SUPPORT. Writes of system registers (spec/04 R122, spec/11 R248): what each register reads after a write, and O26. -/

namespace Sys2Proof.Machine

/-! ### One team updated twice -/

theorem Tab.put_put {α : Type} (t : Tab α) (k : Nat) (v w : α) : Tab.put (Tab.put t k v) k w = Tab.put t k w := by
  induction t with
  | nil => simp [Tab.put]
  | cons e t ih =>
    obtain ⟨j, x⟩ := e
    by_cases h : k < j
    · simp [Tab.put, h]
    · by_cases h' : k = j <;> simp [Tab.put, h, h', ih]

theorem Tab.modify_of_find {α : Type} {t : Tab α} {k : Nat} {v : α} (h : Tab.find t k = some v) (f : α → α) :
    Tab.modify t k f = Tab.put t k (f v) := by
  simp [Tab.modify, h]

theorem State.modTeam_of_team {s : State} {k : Nat} {t : Team} (h : s.team k = some t) (f : Team → Team) :
    s.modTeam k f = s.setTeam k (f t) := by
  rw [State.modTeam, Tab.modify_of_find h]; rfl

theorem State.modTeam_setTeam (s : State) (k : Nat) (t : Team) (f : Team → Team) :
    (s.setTeam k t).modTeam k f = s.setTeam k (f t) := by
  rw [State.modTeam_of_team (State.team_setTeam_self s k t)]
  simp only [State.setTeam, Tab.put_put]

/-! ### The registers of a team -/

/-- A write of a team's own register changes no more of it than the registers that R248 lets a write change. -/
theorem Team.sysWrite_frame (t : Team) (n : Nat) (v : W64) :
    t.sysWrite n v =
      { t with
        fpflags := (t.sysWrite n v).fpflags, fkey := (t.sysWrite n v).fkey, retired := (t.sysWrite n v).retired
        detcause := (t.sysWrite n v).detcause, trapcause := (t.sysWrite n v).trapcause
        trappc := (t.sysWrite n v).trappc, trappass := (t.sysWrite n v).trappass
        trapinfo := (t.sysWrite n v).trapinfo, traplane := (t.sysWrite n v).traplane
        trapmode := (t.sysWrite n v).trapmode, saveptr := (t.sysWrite n v).saveptr, asid := (t.sysWrite n v).asid
        txabpc := (t.sysWrite n v).txabpc, mxflags := (t.sysWrite n v).mxflags
        detlog := (t.sysWrite n v).detlog, h := (t.sysWrite n v).h } := by
  fun_cases Team.sysWrite <;> simp only [*] <;> rfl

section
variable (t : Team) (n : Nat) (v : W64)

@[simp] theorem Team.sysWrite_core : (t.sysWrite n v).core = t.core := by rw [Team.sysWrite_frame]
@[simp] theorem Team.sysWrite_launch : (t.sysWrite n v).launch = t.launch := by rw [Team.sysWrite_frame]
@[simp] theorem Team.sysWrite_sys : (t.sysWrite n v).sys = t.sys := by rw [Team.sysWrite_frame]
@[simp] theorem Team.sysWrite_saveinfo : (t.sysWrite n v).saveinfo = t.saveinfo := by rw [Team.sysWrite_frame]

@[simp] theorem Team.sysWrite_fpflags :
    (t.sysWrite n v).fpflags = if n = 0x010 then t.fpflags &&& v.setWidth 32 else t.fpflags := by
  fun_cases Team.sysWrite <;> grind
@[simp] theorem Team.sysWrite_fkey : (t.sysWrite n v).fkey = if n = 0x011 then v.setWidth 32 else t.fkey := by
  fun_cases Team.sysWrite <;> grind
@[simp] theorem Team.sysWrite_retired : (t.sysWrite n v).retired = if n = 0x013 then v else t.retired := by
  fun_cases Team.sysWrite <;> grind
@[simp] theorem Team.sysWrite_detcause : (t.sysWrite n v).detcause =
    if n = 0x015 then rsField (rwField t.detcause v (maskBits 63 32)) v 0x201FE else t.detcause := by
  fun_cases Team.sysWrite <;> grind
@[simp] theorem Team.sysWrite_trapcause :
    (t.sysWrite n v).trapcause = if n = 0x021 then v &&& maskBits 9 0 else t.trapcause := by
  fun_cases Team.sysWrite <;> grind
@[simp] theorem Team.sysWrite_trappc :
    (t.sysWrite n v).trappc = if n = 0x022 then v &&& maskBits 47 2 else t.trappc := by
  fun_cases Team.sysWrite <;> grind
@[simp] theorem Team.sysWrite_trappass :
    (t.sysWrite n v).trappass = if n = 0x023 then v &&& maskBits 5 0 else t.trappass := by
  fun_cases Team.sysWrite <;> grind
@[simp] theorem Team.sysWrite_trapinfo : (t.sysWrite n v).trapinfo = if n = 0x024 then v else t.trapinfo := by
  fun_cases Team.sysWrite <;> grind
@[simp] theorem Team.sysWrite_traplane :
    (t.sysWrite n v).traplane = if n = 0x025 then v &&& maskBits 9 0 else t.traplane := by
  fun_cases Team.sysWrite <;> grind
@[simp] theorem Team.sysWrite_trapmode :
    (t.sysWrite n v).trapmode = if n = 0x026 then v &&& maskBits 21 0 else t.trapmode := by
  fun_cases Team.sysWrite <;> grind
@[simp] theorem Team.sysWrite_saveptr :
    (t.sysWrite n v).saveptr = if n = 0x028 then v &&& maskBits 47 7 else t.saveptr := by
  fun_cases Team.sysWrite <;> grind
@[simp] theorem Team.sysWrite_asid : (t.sysWrite n v).asid = if n = 0x030 then v &&& maskBits 15 0 else t.asid := by
  fun_cases Team.sysWrite <;> grind
@[simp] theorem Team.sysWrite_txabpc :
    (t.sysWrite n v).txabpc = if n = 0x051 then v &&& maskBits 47 0 else t.txabpc := by
  fun_cases Team.sysWrite <;> grind
@[simp] theorem Team.sysWrite_mxflags : (t.sysWrite n v).mxflags = if n = 0x080 then t.mxflags &&& v else t.mxflags := by
  fun_cases Team.sysWrite <;> grind
@[simp] theorem Team.sysWrite_h : (t.sysWrite n v).h =
    if 0x040 ≤ n ∧ n ≤ 0x047 then t.h.setIfInBounds (n - 0x040) v else t.h := by
  fun_cases Team.sysWrite <;> grind
@[simp] theorem Team.sysWrite_detlog : (t.sysWrite n v).detlog =
    if 0x016 ≤ n ∧ n ≤ 0x01D then t.detlog.setIfInBounds (n - 0x016) (v &&& maskBits 63 2) else t.detlog := by
  fun_cases Team.sysWrite <;> grind

end

/-! What a system register of the team reads after a write of one. -/

theorem getD_setIfInBounds {n : Nat} (a : Vector W64 n) (i j : Nat) (v d : W64) :
    (a.setIfInBounds i v).getD j d = if i = j ∧ j < n then v else a.getD j d := by
  by_cases hj : j < n <;> by_cases h : i = j <;> simp [Vector.getD, hj, h]

theorem Team.sysWrite_h_getD (t : Team) (n : Nat) (v : W64) (i : Nat) :
    (t.sysWrite n v).h.getD i 0 = if n = 0x040 + i ∧ i < 8 then v else t.h.getD i 0 := by
  rw [Team.sysWrite_h]
  split
  · have e : (n - 0x040 = i ∧ i < 8) = (n = 0x040 + i ∧ i < 8) := propext ⟨by omega, by omega⟩
    rw [getD_setIfInBounds]; simp only [e]
  · rw [if_neg (by omega)]

theorem Team.sysWrite_detlog_getD (t : Team) (n : Nat) (v : W64) (i : Nat) :
    (t.sysWrite n v).detlog.getD i 0 = if n = 0x016 + i ∧ i < 8 then v &&& maskBits 63 2 else t.detlog.getD i 0 := by
  rw [Team.sysWrite_detlog]
  split
  · have e : (n - 0x016 = i ∧ i < 8) = (n = 0x016 + i ∧ i < 8) := propext ⟨by omega, by omega⟩
    rw [getD_setIfInBounds]; simp only [e]
  · rw [if_neg (by omega)]

theorem State.sysRead_h (s : State) (t : Team) {i : Nat} (h : i < 8) : s.sysRead t (0x040 + i) = t.h.getD i 0 :=
  match i, h with
  | 0, _ | 1, _ | 2, _ | 3, _ | 4, _ | 5, _ | 6, _ | 7, _ => rfl

/-- A write of a register of the team leaves what every other system register reads, but that CYCLE reads RETIRED under
DET (R373). -/
theorem State.sysRead_sysWrite_ne (s : State) (t : Team) {n m : Nat} (v : W64) (h : n ≠ m)
    (hd : n = 0x013 → t.launch.det = false) : s.sysRead (t.sysWrite n v) m = s.sysRead t m := by
  unfold State.sysRead
  split
  case h_6 => -- CYCLE, which reads RETIRED under DET
    by_cases hn : n = 0x013
    · simp [hd hn]
    · simp [hn]
  case h_40 => -- DET0x016G and the h registers
    simp only [Team.sysWrite_h_getD, Team.sysWrite_detlog_getD, Team.sysWrite_core]
    exact ite_congr rfl (fun hm => by grind) (fun _ => ite_congr rfl (fun hm => by grind) (fun _ => rfl))
  all_goals simp [h]

theorem and_fullMask (v : W64) : v &&& 0xFFFFFFFFFFFFFFFF#64 = v := BitVec.and_allOnes

theorem setWidth_setWidth_mask (v : W64) {k : Nat} (h : k ≤ 64) :
    (v.setWidth k).setWidth 64 = v &&& BitVec.ofNat 64 (2 ^ k - 1) := by
  apply BitVec.eq_of_toNat_eq
  have hk : 2 ^ k ≤ 2 ^ 64 := Nat.pow_le_pow_right (by decide) h
  have hm : v.toNat % 2 ^ k < 2 ^ 64 := Nat.lt_of_le_of_lt (Nat.mod_le _ _) v.isLt
  rw [BitVec.toNat_and, BitVec.toNat_ofNat, Nat.mod_eq_of_lt (by omega), Nat.and_two_pow_sub_one_eq_mod,
    BitVec.toNat_setWidth, BitVec.toNat_setWidth, Nat.mod_eq_of_lt hm]

/-- A register of the team reads the bits of a write that it holds (R248, R253). -/
theorem State.sysRead_sysWrite_self (s : State) (t : Team) (v : W64) :
    ∀ e ∈ Claims.teamWrites, s.sysRead (t.sysWrite e.1 v) e.1 = v &&& e.2 := by
  refine List.forall_mem_append.2 ⟨?_, fun e he => ?_⟩
  · simp only [List.forall_mem_cons, List.not_mem_nil, false_implies, implies_true, and_true]
    and_intros
    all_goals simp [State.sysRead, maskBits, setWidth_setWidth_mask, and_fullMask]
  · obtain ⟨i, hi, rfl⟩ := List.mem_map.1 he
    rw [State.sysRead_h s _ (List.mem_range.1 hi), Team.sysWrite_h_getD, if_pos ⟨rfl, List.mem_range.1 hi⟩]
    exact (and_fullMask v).symm

/-! ### The registers of a core -/

section
variable (c : CoreRegs) (n : Nat) (v : W64)

@[simp] theorem CoreRegs.sysWrite_tallow : (c.sysWrite n v).tallow = c.tallow := by
  fun_cases CoreRegs.sysWrite <;> rfl
@[simp] theorem CoreRegs.sysWrite_poolReg : (c.sysWrite n v).poolReg = c.poolReg := by
  fun_cases CoreRegs.sysWrite <;> rfl
@[simp] theorem CoreRegs.sysWrite_poolAcc : (c.sysWrite n v).poolAcc = c.poolAcc := by
  fun_cases CoreRegs.sysWrite <;> rfl
@[simp] theorem CoreRegs.sysWrite_awake : (c.sysWrite n v).awake = c.awake := by
  fun_cases CoreRegs.sysWrite <;> rfl
@[simp] theorem CoreRegs.sysWrite_mgate :
    (c.sysWrite n v).mgate = if n = 0x002 then v &&& (maskBits 31 31 ||| maskBits 19 0) else c.mgate := by
  fun_cases CoreRegs.sysWrite <;> simp_all [CoreRegs.setMargin]
@[simp] theorem CoreRegs.sysWrite_trapbase :
    (c.sysWrite n v).trapbase = if n = 0x020 then v &&& maskBits 47 12 else c.trapbase := by
  fun_cases CoreRegs.sysWrite <;> simp_all [CoreRegs.setMargin]
@[simp] theorem CoreRegs.sysWrite_preemptlim :
    (c.sysWrite n v).preemptlim = if n = 0x027 then v &&& maskBits 23 0 else c.preemptlim := by
  fun_cases CoreRegs.sysWrite <;> simp_all [CoreRegs.setMargin]
@[simp] theorem CoreRegs.sysWrite_misload :
    (c.sysWrite n v).misload = if n = 0x048 then v else c.misload := by
  fun_cases CoreRegs.sysWrite <;> simp_all [CoreRegs.setMargin]
@[simp] theorem CoreRegs.sysWrite_miscomp :
    (c.sysWrite n v).miscomp = if n = 0x049 then v else c.miscomp := by
  fun_cases CoreRegs.sysWrite <;> simp_all [CoreRegs.setMargin]
@[simp] theorem CoreRegs.sysWrite_flushed :
    (c.sysWrite n v).flushed = if n = 0x04A then v else c.flushed := by
  fun_cases CoreRegs.sysWrite <;> simp_all [CoreRegs.setMargin]
@[simp] theorem CoreRegs.sysWrite_chkrecomp :
    (c.sysWrite n v).chkrecomp = if n = 0x04B then v else c.chkrecomp := by
  fun_cases CoreRegs.sysWrite <;> simp_all [CoreRegs.setMargin]
@[simp] theorem CoreRegs.sysWrite_logstall :
    (c.sysWrite n v).logstall = if n = 0x04C then v else c.logstall := by
  fun_cases CoreRegs.sysWrite <;> simp_all [CoreRegs.setMargin]
@[simp] theorem CoreRegs.sysWrite_brkcnt :
    (c.sysWrite n v).brkcnt = if n = 0x04D then v else c.brkcnt := by
  fun_cases CoreRegs.sysWrite <;> simp_all [CoreRegs.setMargin]

end

theorem State.core_setCore (s : State) (c j : Nat) (r : CoreRegs) :
    (s.setCore c r).core j = if j = c then r else s.core j := by
  unfold State.core State.setCore
  rw [Tab.find_put]
  split <;> rfl

theorem State.setCore_setCore (s : State) (c : Nat) (r r' : CoreRegs) :
    (s.setCore c r).setCore c r' = s.setCore c r' := by
  simp only [State.setCore, Tab.put_put]

theorem State.holdStep_setCore (s : State) (c : Nat) (r : CoreRegs) :
    ∃ st, (s.setCore c r).holdStep c = s.setCore c { r with step := st } := by
  unfold State.holdStep
  split
  · refine ⟨8, ?_⟩
    rw [State.modCore, State.setCore_setCore, State.core_setCore, if_pos rfl]
  · exact ⟨r.step, rfl⟩

/-- POOLCFG and MXSTAT show nothing of a core's registers but its partition word and whether it is awake. -/
theorem State.poolcfg_setCore (s : State) (c : Nat) {r : CoreRegs} (hr : r.poolReg = (s.core c).poolReg)
    (ha : r.poolAcc = (s.core c).poolAcc) : (s.setCore c r).poolcfg c = s.poolcfg c := by
  simp only [State.poolcfg, State.core_setCore, if_true, hr, ha]
  rfl

theorem State.mxstat_setCore (s : State) (c cl : Nat) {r : CoreRegs} (hr : r.awake = (s.core c).awake) :
    (s.setCore c r).mxstat cl = s.mxstat cl := by
  have h (j : Nat) : ((s.setCore c r).core j).awake = (s.core j).awake := by
    rw [State.core_setCore]
    split
    · next e => rw [e, hr]
    · rfl
  simp only [State.mxstat, h]
  rfl

/-- The registers of a core after a SYSW, with the clock step that its quadrant allows (R397). -/
def CoreRegs.afterWrite (c : CoreRegs) (n : Nat) (v : W64) (step : BitVec 4) : CoreRegs :=
  { c.sysWrite n v with step := step }

/-- A write of a register of the core leaves what every other system register but MARGIN reads. -/
theorem State.sysRead_coreWrite_ne (s : State) (t : Team) {n m : Nat} (v : W64) (st : BitVec 4) (h : n ≠ m)
    (hm : m ≠ 0x04E) :
    (s.setCore t.core.toNat ((s.core t.core.toNat).afterWrite n v st)).sysRead t m = s.sysRead t m := by
  unfold State.sysRead
  simp only [State.core_setCore, if_true, CoreRegs.afterWrite]
  split
  case h_26 => exact absurd rfl hm -- MARGIN
  case h_27 => exact State.poolcfg_setCore s _ (by simp) (by simp)
  case h_34 => exact State.mxstat_setCore s _ _ (by simp)
  all_goals simp [h]
  all_goals rfl

/-- A register of the core reads the bits of a write that it holds (R248, R253). -/
theorem State.sysRead_coreWrite_self (s : State) (t : Team) (v : W64) (st : BitVec 4) :
    ∀ e ∈ Claims.coreWrites,
      (s.setCore t.core.toNat ((s.core t.core.toNat).afterWrite e.1 v st)).sysRead t e.1 = v &&& e.2 := by
  simp only [Claims.coreWrites, List.forall_mem_cons, List.not_mem_nil, false_implies, implies_true, and_true]
  and_intros
  all_goals simp [State.sysRead, State.core_setCore, CoreRegs.afterWrite, maskBits, and_fullMask]

/-! ### SYSW -/

/-- Numbers that SYSW writes in the core (R248). -/
abbrev coreNumber (n : Nat) : Prop := n = 0x002 ∨ n = 0x020 ∨ n = 0x027 ∨ (0x048 ≤ n ∧ n ≤ 0x04E)

theorem State.sysWrite_team (s : State) (k : Nat) (t : Team) {n : Nat} (v : W64) (h : n ≤ 0x080) (hc : ¬ coreNumber n) :
    s.sysWrite k t n v = s.setTeam k (t.sysWrite n v) := by
  unfold State.sysWrite
  rw [if_neg (by simp only [Bool.and_eq_true, decide_eq_true_eq]; omega), if_neg (by omega),
    if_neg (by simp only [Bool.and_eq_true, Bool.or_eq_true, beq_iff_eq, decide_eq_true_eq]; omega)]

theorem State.sysWrite_core (s : State) (k : Nat) (t : Team) {n : Nat} (v : W64) (h : coreNumber n) :
    ∃ st, s.sysWrite k t n v =
      s.setCore t.core.toNat ((s.core t.core.toNat).afterWrite n v st) := by
  unfold State.sysWrite
  rw [if_neg (by simp only [Bool.and_eq_true, decide_eq_true_eq]; omega), if_neg (by omega),
    if_pos (by simp only [Bool.and_eq_true, Bool.or_eq_true, beq_iff_eq, decide_eq_true_eq]; omega)]
  exact State.holdStep_setCore s _ _

/-- No scalar register's number is that of a placement value (R373). -/
theorem reading_scalarField (t : Team) (r : BitVec 6) : t.reading [r.toNat] = t := by
  have h : placeField r.toNat = false := by
    have := r.isLt
    simp only [placeField, Bool.or_eq_false_iff, beq_eq_false_iff_ne]
    omega
  simp [Team.reading, Team.detIf, h]

/-- SYSW of a register that the mode may write, for ASID after the drain, has the effect of the write (R122, R248). -/
theorem exec_sysw_of_allowed {f : SYR} {s : State} {k : Nat} {t : Team} (hi : s.CanIssueScalar k t [f.s.toNat])
    (hp : t.sys = true ∨ userWrites f.n.toNat = true) (hd : f.n.toNat = 0x030 → t.drained = true) :
    exec (.sysw f) s =
      .next ((s.sysWrite k (t.detIf (f.n.toNat == 0x013) 6) f.n.toNat (t.sreg f.s.toNat)).modTeam k Team.retire) := by
  have hc : trapIf (!t.sys && !userWrites f.n.toNat) (t.privilege (wordOf (.sysw f))) = none := by
    rcases hp with h | h <;> simp [trapIf, h]
  rw [exec_sysw, execSysw, issueChecked_eq _ hi hc, reading_scalarField, if_neg]
  simpa using hd

/-- In system mode a retirement leaves what every system register reads: RETIRED counts in user mode alone (R208). -/
theorem State.sysRead_retire (s : State) {t : Team} (n : Nat) (h : t.sys = true) :
    s.sysRead t.retire n = s.sysRead t n := by
  have hr : t.retiredNext = t.retired := by simp [Team.retiredNext, h]
  rw [Team.retire, retireTo_eq, hr]
  rfl

theorem State.sysRead_setTeam (s : State) (k : Nat) (u t : Team) (n : Nat) :
    (s.setTeam k u).sysRead t n = s.sysRead t n := rfl

theorem readLoc_setTeam (s : State) (k : Nat) (u : Team) (l : Loc) : (s.setTeam k u).readLoc l = s.readLoc l :=
  (keepsRest_setTeam s k u).1 l

theorem readLoc_setCore (s : State) (c : Nat) (r : CoreRegs) (l : Loc) : (s.setCore c r).readLoc l = s.readLoc l := by
  cases l <;> rfl

/-- What a SYSW in system mode keeps of its team: it goes on at the next word. -/
def Team.WentOn (t u : Team) : Prop :=
  u.s = t.s ∧ u.rows = t.rows ∧ u.mode = t.mode ∧ u.sys = t.sys ∧ u.paths = t.paths ∧ u.txstat = t.txstat ∧
    u.pc = t.pc + 4 ∧ u.pass = 0

theorem wentOn_retire (t : Team) : t.WentOn t.retire := by
  rw [Team.retire, retireTo_eq]
  exact ⟨rfl, rfl, rfl, rfl, rfl, rfl, rfl, rfl⟩

theorem wentOn_sysWrite (t : Team) (b : Bool) (c n : Nat) (v : W64) : t.WentOn ((t.detIf b c).sysWrite n v).retire := by
  rw [Team.retire, retireTo_eq, Team.sysWrite_frame, detIf_eq]
  exact ⟨rfl, rfl, rfl, rfl, rfl, rfl, rfl, rfl⟩

/-- The numbers of `teamWrites` are written in the team, those of `coreWrites` in its core. -/
theorem teamWrites_numbers : ∀ e ∈ Claims.teamWrites, e.1 ≤ 0x080 ∧ ¬ coreNumber e.1 := by decide

theorem coreWrites_numbers : ∀ e ∈ Claims.coreWrites, coreNumber e.1 ∧ e.1 ≠ 0x013 := by decide

/-- R122, R248: what SYSW leaves of a register of the team. -/
theorem sysw_teamRegister {f : SYR} {s : State} {k : Nat} {t : Team} {m : W64} (hi : s.CanIssueScalar k t [f.s.toNat])
    (hs : t.sys = true) (hn : (f.n.toNat, m) ∈ Claims.teamWrites) (hd : f.n.toNat = 0x030 → t.drained = true) :
    ∃ u, exec (.sysw f) s = .next (s.setTeam k u) ∧ t.WentOn u ∧
      (s.setTeam k u).sysRead u f.n.toNat = t.sreg f.s.toNat &&& m ∧
      ∀ n, n ≠ f.n.toNat → (f.n.toNat = 0x013 → t.launch.det = false) → (s.setTeam k u).sysRead u n = s.sysRead t n := by
  obtain ⟨hle, hcore⟩ := teamWrites_numbers _ hn
  have hsys : ((t.detIf (f.n.toNat == 0x013) 6).sysWrite f.n.toNat (t.sreg f.s.toNat)).sys = true := by
    rw [Team.sysWrite_sys, detIf_eq]; exact hs
  refine ⟨((t.detIf (f.n.toNat == 0x013) 6).sysWrite f.n.toNat (t.sreg f.s.toNat)).retire, ?_,
    wentOn_sysWrite .., ?_, ?_⟩
  · rw [exec_sysw_of_allowed hi (.inl hs) hd, State.sysWrite_team s k _ _ hle hcore, State.modTeam_setTeam]
  · rw [State.sysRead_setTeam, State.sysRead_retire s _ hsys, State.sysRead_sysWrite_self s _ _ _ hn]
  · intro n hne hdet
    have hplain : t.detIf (f.n.toNat == 0x013) 6 = t := by
      by_cases h13 : f.n.toNat = 0x013
      · exact detIf_plain t _ 6 (hdet h13)
      · simp [Team.detIf, h13]
    rw [State.sysRead_setTeam, State.sysRead_retire s _ hsys, hplain, State.sysRead_sysWrite_ne s t _ hne.symm hdet]

/-- R122, R248: what SYSW leaves of a register of the core. -/
theorem sysw_coreRegister {f : SYR} {s : State} {k : Nat} {t : Team} {m : W64} (hi : s.CanIssueScalar k t [f.s.toNat])
    (hs : t.sys = true) (hn : (f.n.toNat, m) ∈ Claims.coreWrites) (hd : f.n.toNat = 0x030 → t.drained = true) :
    ∃ r, exec (.sysw f) s = .next ((s.setCore t.core.toNat r).setTeam k t.retire) ∧
      ((s.setCore t.core.toNat r).setTeam k t.retire).sysRead t.retire f.n.toNat = t.sreg f.s.toNat &&& m ∧
      ∀ n, n ≠ f.n.toNat → n ≠ 0x04E →
        ((s.setCore t.core.toNat r).setTeam k t.retire).sysRead t.retire n = s.sysRead t n := by
  obtain ⟨hcore, h13⟩ := coreWrites_numbers _ hn
  have hplain : t.detIf (f.n.toNat == 0x013) 6 = t := by simp [Team.detIf, h13]
  obtain ⟨st, hw⟩ := State.sysWrite_core s k t (t.sreg f.s.toNat) hcore
  obtain ⟨-, hteam, -⟩ := hi.1
  refine ⟨(s.core t.core.toNat).afterWrite f.n.toNat (t.sreg f.s.toNat) st, ?_, ?_, ?_⟩
  · rw [exec_sysw_of_allowed hi (.inl hs) hd, hplain, hw]
    exact congrArg Host.Outcome.next (State.modTeam_of_team (s := s.setCore _ _) hteam _)
  · rw [State.sysRead_setTeam, State.sysRead_retire _ _ hs, State.sysRead_coreWrite_self s t _ st _ hn]
  · intro n hne hm
    rw [State.sysRead_setTeam, State.sysRead_retire _ _ hs, State.sysRead_coreWrite_ne s t _ st hne.symm hm]

theorem plainRegisterWrites : Claims.PlainRegisterWrites := by
  intro f s k t m hi hs hmem hd
  rcases List.mem_append.1 hmem with hn | hn
  · obtain ⟨u, he, ⟨hS, hrows, hmode, hsys, hpaths, htx, hpc, hpass⟩, hself, hrest⟩ := sysw_teamRegister hi hs hn hd
    exact ⟨_, u, he, State.team_setTeam_self s k u, hself, fun n h _ => hrest n h, hS, hrows, hmode, hsys.trans hs,
      hpaths, htx, hpc, hpass, readLoc_setTeam s k u, rfl, fun j hj => State.team_setTeam_ne s hj u, rfl, rfl⟩
  · obtain ⟨r, he, hself, hrest⟩ := sysw_coreRegister hi hs hn hd
    obtain ⟨hS, hrows, hmode, hsys, hpaths, htx, hpc, hpass⟩ := wentOn_retire t
    exact ⟨_, t.retire, he, State.team_setTeam_self _ k _, hself, fun n h h' _ => hrest n h h', hS, hrows, hmode,
      hsys.trans hs, hpaths, htx, hpc, hpass, fun l => (readLoc_setTeam _ k _ l).trans (readLoc_setCore s _ r l), rfl,
      fun j hj => State.team_setTeam_ne _ hj _, rfl, rfl⟩

/-- R6, R25: SYSW of FPFLAGS, FKEY and MXFLAGS, in either mode. -/
theorem sysw_userRegister {f : SYR} {s : State} {k : Nat} {t : Team} (hi : s.CanIssueScalar k t [f.s.toNat])
    (hn : userWrites f.n.toNat = true) : Claims.GoesOn (.sysw f) s k (t.sysWrite f.n.toNat (t.sreg f.s.toNat)) := by
  have hnum : f.n.toNat = 0x010 ∨ f.n.toNat = 0x011 ∨ f.n.toNat = 0x080 := by simpa [userWrites, or_assoc] using hn
  have hplain : t.detIf (f.n.toNat == 0x013) 6 = t := by
    have : f.n.toNat ≠ 0x013 := by omega
    simp [Team.detIf, this]
  refine ⟨_, ?_, keepsRest_setTeam .., retireTo_Retired _ _⟩
  rw [exec_sysw_of_allowed hi (.inr hn) (by omega), hplain,
    State.sysWrite_team s k t _ (by omega) (by unfold coreNumber; omega), State.modTeam_setTeam]
  rfl

theorem flagRegisterWrites : Claims.FlagRegisterWrites := by
  intro f s k t hi
  refine ⟨fun h => ?_, fun h => ?_, fun h => ?_⟩ <;>
  · have := sysw_userRegister hi (by rw [h]; rfl)
    rwa [h] at this

/-- Settles O26, from the write of a team's register, of a core's register, and of the three that user mode may write. -/
theorem systemRegisterWrites : Obligations.SystemRegisterWrites := ⟨plainRegisterWrites, flagRegisterWrites⟩

end Sys2Proof.Machine
end

section
/-! SUPPORT. The events of the package (spec/22 R428 to R438): what the accesses of I/O-die agents leave unchanged, reset
and boot, registers of window A, host accesses, reports, and O52. -/

namespace Sys2Proof.Machine

/-! ### The view that I/O-die agents keep -/

/-- What no access of an I/O-die agent changes: the teams, the security block and the host port. -/
def State.hostView (s : State) : Tab Team × Security × HostPort := (s.teams, s.security, s.hostPort)

theorem State.teams_of_hostView {s s' : State} (h : s'.hostView = s.hostView) : s'.teams = s.teams :=
  congrArg Prod.fst h

theorem State.security_of_hostView {s s' : State} (h : s'.hostView = s.hostView) : s'.security = s.security :=
  congrArg (·.2.1) h

theorem State.hostPort_of_hostView {s s' : State} (h : s'.hostView = s.hostView) : s'.hostPort = s.hostPort :=
  congrArg (·.2.2) h

theorem foldl_hostView {α : Type} (f : State → α → State) (hf : ∀ s a, (f s a).hostView = s.hostView) (l : List α)
    (s : State) : (l.foldl f s).hostView = s.hostView := by
  induction l generalizing s with
  | nil => rfl
  | cons a l ih => exact (ih _).trans (hf s a)

/-! ### Lines and stores -/

theorem countTransfer_frame (s : State) (pa : Nat) (c : Bool) :
    s.countTransfer pa c = { s with phys := (s.countTransfer pa c).phys } := by
  fun_cases State.countTransfer <;> simp only [*]

theorem hostView_countTransfer (s : State) (pa : Nat) (c : Bool) : (s.countTransfer pa c).hostView = s.hostView := by
  rw [countTransfer_frame]; rfl

theorem vmem_countTransfer (s : State) (pa : Nat) (c : Bool) : (s.countTransfer pa c).vmem = s.vmem := by
  rw [countTransfer_frame]

theorem hostView_lineToPhys (s : State) (src : Memory) (k pa : Nat) (p : BitVec 4) (c : Bool) :
    (s.lineToPhys src k pa p c).hostView = s.hostView := hostView_countTransfer ..

theorem hostView_fillLine (s : State) (tag : BitVec 16) (va : Nat) (p : Page) :
    (s.fillLine tag va p).hostView = s.hostView :=
  hostView_countTransfer ..

theorem hostView_writeBack (s : State) (key : Nat) : (s.writeBack key).hostView = s.hostView := by
  unfold State.writeBack
  split
  · rfl
  · split
    · exact hostView_lineToPhys ..
    · rfl

theorem vmem_writeBack (s : State) (key : Nat) : (s.writeBack key).vmem = s.vmem := by
  unfold State.writeBack
  split
  · rfl
  · split
    · exact vmem_countTransfer ..
    · rfl

theorem hostView_releaseTables (s : State) : s.releaseTables.hostView = s.hostView :=
  foldl_hostView _ hostView_writeBack _ s

theorem vmem_releaseTables (s : State) : s.releaseTables.vmem = s.vmem := by
  unfold State.releaseTables
  generalize List.map _ _ = keys
  induction keys generalizing s with
  | nil => rfl
  | cons key keys ih => exact (ih _).trans (vmem_writeBack s key)

theorem hostView_keepTlb (s : State) (n : Nat) (tag : BitVec 16) (p : Option Page) :
    (s.keepTlb n tag p).hostView = s.hostView := by
  cases p <;> rfl

theorem hostView_setPool (s : State) (g grp : Nat) (p : Pool) : (s.setPool g grp p).hostView = s.hostView := by
  unfold State.setPool
  split <;> rfl

theorem hostView_storeLine (s : State) (l : Loc) (b : List (Nat × Byte)) : (s.storeLine l b).hostView = s.hostView := by
  cases l with
  | virt => rfl
  | pool => exact hostView_setPool ..

theorem hostView_probe (s : State) (core : Option Nat) (key : Nat) : (s.probe core key).hostView = s.hostView :=
  foldl_hostView (fun s c => s.uncache c key) (fun _ _ => rfl) _ s

theorem hostView_probeAt (s : State) (core : Option Nat) (l : Loc) : (s.probeAt core l).hostView = s.hostView := by
  cases l with
  | virt => exact hostView_probe ..
  | pool => rfl

theorem hostView_noteWrite (s : State) (who : Option Nat) (l : Loc) (b : List (Nat × Byte)) :
    (s.noteWrite who l b).hostView = s.hostView := by
  unfold State.noteWrite
  split <;> rfl

theorem hostView_performStore (s : State) (who : Option Nat) (l : Loc) (b : List (Nat × Byte)) (core : Option Nat) :
    (s.performStore who l b core).hostView = s.hostView :=
  (hostView_noteWrite ..).trans <| (hostView_storeLine ..).trans (hostView_probeAt ..)

theorem hostView_setPoison (s : State) (l : Loc) : (s.setPoison l).hostView = s.hostView := by
  cases l with
  | virt => rfl
  | pool => exact hostView_setPool ..

theorem hostView_poisonBytes (s : State) (l : Loc) (b : List (Nat × Byte)) : (s.poisonBytes l b).hostView = s.hostView :=
  foldl_hostView _ (fun s _ => hostView_setPoison s _) _ s

/-! ### The fabric -/

theorem hostView_noteFabric (s : State) (g : Option Nat) : (s.noteFabric g).hostView = s.hostView := by
  cases g <;> rfl

theorem hostView_passMeter {s s' : State} {p : Nat} (h : s.passMeter p = some s') : s'.hostView = s.hostView := by
  unfold State.passMeter at h
  split at h
  · cases h
  · cases h; rfl

theorem hostView_depart {s s' : State} {x y : OutTxn} {l : List OutTxn} (h : s.depart x l = some (y, s')) :
    s'.hostView = s.hostView := by
  unfold State.depart at h
  split at h
  · cases h
  · split at h
    · cases h
    · obtain ⟨s₁, h₁, he⟩ := Option.map_eq_some_iff.1 h
      cases he
      split at h₁
      · exact hostView_passMeter h₁
      · cases h₁; rfl

theorem hostView_send (s : State) (x : OutTxn) : (s.send x).hostView = s.hostView := by
  unfold State.send
  split
  · next h => exact (hostView_noteFabric ..).trans (hostView_depart h :)
  · rfl

theorem hostView_invalidate (s : State) (tag : BitVec 16) (va : Nat) : (s.invalidate tag va).hostView = s.hostView := by
  refine foldl_hostView _ (fun s p => ?_) _ s
  dsimp only
  split
  · rfl
  · split
    · next h =>
      unfold State.departInval at h
      split at h
      · exact (hostView_passMeter h :)
      · cases h
    · rfl

/-! ### Accesses of I/O-die agents -/

/-- The state that an access behind the core leaves, if it answers one. -/
def LineAt.state : LineAt → Option State
  | .ready s _ | .peer s _ => some s
  | .held | .protect | .fault _ => none

/-- The state that an access of an I/O-die agent leaves, if it answers one. -/
def AgentRes.state {α : Type} : AgentRes α → Option State
  | .done _ s | .sent s | .wait s => some s
  | .refused | .fault _ _ => none

theorem hostView_reach {s s' : State} {tlb : Nat} {tag : BitVec 16} {va : Nat} {need : Need} {user ident : Bool}
    (h : (s.reach tlb tag va need user ident).state = some s') : s'.hostView = s.hostView := by
  unfold State.reach at h
  split at h
  · split at h
    · cases h
    · dsimp only at h
      split at h
      · cases h; rfl
      · split at h <;> cases h
        rfl
  · dsimp only at h
    split at h
    · split at h
      · cases h
      · split at h <;> cases h <;> rfl
    · split at h
      · split at h
        · cases h; exact (hostView_fillLine ..).trans (hostView_keepTlb ..)
        · cases h; exact hostView_keepTlb ..
      · cases h
      · cases h

theorem hostView_agentWrite {s s' : State} {asid : BitVec 16} {va : Nat} {bytes : List Byte} {grid id : Option Nat}
    (h : (s.agentWrite asid va bytes grid id).state = some s') : s'.hostView = s.hostView := by
  unfold State.agentWrite at h
  dsimp only at h
  split at h
  · next s₁ loc hr =>
    have h₁ : s₁.hostView = s.hostView := hostView_reach (by rw [hr]; rfl)
    split at h
    · cases h; exact (hostView_performStore ..).trans h₁
    · cases h; exact (hostView_invalidate ..).trans h₁
  · cases h; rfl
  · next s₁ p hr =>
    have h₁ : s₁.hostView = s.hostView := hostView_reach (by rw [hr]; rfl)
    cases h; exact (hostView_send ..).trans h₁
  · cases h
  · cases h

/-! ### Records, CRC checks and ordered writes -/

theorem hostView_putBeacon (s : State) (source type sev : Nat) (payload : List (Nat × Nat)) :
    (s.putBeacon source type sev payload).1.hostView = s.hostView := by
  unfold State.putBeacon State.ringWrite
  dsimp only
  split
  · rfl
  · split
    · next h => exact (hostView_agentWrite (by rw [h]; rfl) :)
    · next h => exact (hostView_agentWrite (by rw [h]; rfl) :)
    · rfl

theorem hostView_takeCrc (s : State) (source : Nat) (tag : BitVec 16) (va : Nat) :
    (s.takeCrc source tag va).2.hostView = s.hostView := by
  unfold State.takeCrc
  split
  · rfl
  · split <;> rfl

theorem hostView_recordCrc (s : State) (at_ : Option Nat) : (s.recordCrc at_).hostView = s.hostView := by
  unfold State.recordCrc
  split
  · rfl
  · next va =>
    have h := hostView_takeCrc s 4 0 va
    dsimp only
    split
    · exact h
    · exact h
    · exact (hostView_putBeacon ..).trans <| (hostView_setPoison ..).trans <| (hostView_setPoison ..).trans h

theorem hostView_beacon (s : State) (source type sev : Nat) (payload : List (Nat × Nat)) :
    (s.beacon source type sev payload).hostView = s.hostView :=
  (hostView_recordCrc ..).trans (hostView_putBeacon ..)

theorem hostView_crossing (s : State) (source : Nat) (tag : BitVec 16) (va : Nat) :
    (s.crossing source tag va).2.hostView = s.hostView := by
  have h := hostView_takeCrc s source tag va
  unfold State.crossing State.countCrc
  dsimp only
  split
  · exact h
  · exact h
  · exact (hostView_beacon ..).trans h

theorem hostView_agentCrc (s : State) (asid : BitVec 16) (va n : Nat) : (s.agentCrc asid va n).hostView = s.hostView := by
  have h := hostView_crossing s 4 (tagOf asid va) va
  unfold State.agentCrc
  dsimp only
  split
  · exact (hostView_poisonBytes ..).trans h
  · exact h

theorem hostView_orderedWrite {s s' : State} {asid : BitVec 16} {owner : Writer} {step va : Nat} {bytes : List Byte}
    (h : (s.orderedWrite asid owner step va bytes).state = some s') : s'.hostView = s.hostView := by
  unfold State.orderedWrite at h
  split at h
  · split at h <;> cases h <;> rfl
  · split at h
    · next hw =>
      cases h
      exact (hostView_agentCrc ..).trans (hostView_agentWrite (s' := _) (by rw [hw]; rfl))
    · next hw => cases h; exact (hostView_agentWrite (by rw [hw]; rfl) :)
    · exact hostView_agentWrite h

theorem hostView_writeReport_wait {n : Nat} {s s' : State} {va : Nat} {bytes : List Byte}
    (h : s.writeReport n va bytes = .wait s') : s'.hostView = s.hostView := by
  induction n generalizing s va bytes with
  | zero => cases h
  | succ n ih =>
    unfold State.writeReport at h
    split at h
    · cases h
    · split at h
      · next hw => exact (ih h).trans (hostView_orderedWrite (s' := _) (by rw [hw]; rfl))
      · next hw => cases h; exact hostView_orderedWrite (s' := _) (by rw [hw]; rfl)
      · next hw => cases h; exact hostView_orderedWrite (s' := _) (by rw [hw]; rfl)
      · cases h
      · cases h

/-! ### Reset and boot (R437) -/

theorem bootStages_of_verified {l : List StageImage} (h : ∀ x ∈ l, stageVerifies x = true) :
    bootStages l = (l, none) := by
  induction l with
  | nil => rfl
  | cons x rest ih =>
    rw [List.forall_mem_cons] at h
    simp [bootStages, h.1, ih h.2]

theorem bootStages_of_failed {passed rest : List StageImage} {x : StageImage}
    (h : ∀ y ∈ passed, stageVerifies y = true) (hx : stageVerifies x = false) :
    bootStages (passed ++ x :: rest) = (passed, some x) := by
  induction passed with
  | nil => simp [bootStages, hx]
  | cons y passed ih =>
    rw [List.forall_mem_cons] at h
    simp [bootStages, h.1, ih h.2]

/-- While Beacon is disabled a record is lost, and changes the ring's own counts alone (R406). -/
theorem beacon_of_disabled (s : State) (h : s.relia.beacon.en = false) (source type sev : Nat)
    (payload : List (Nat × Nat)) :
    ∃ r, s.beacon source type sev payload = { s with relia := { s.relia with beacon := r } } := by
  simp [State.beacon, State.putBeacon, State.ringWrite, State.recordCrc, h]

/-- The module after a reset whose boot has ended as `boot` says. -/
def State.afterReset (s : State) (boot : List StageImage × Option StageImage) (ring : Ring) : State :=
  { State.reset with
    agenda := s.agenda, freeIdx := s.freeIdx, phys := s.phys, physPoison := s.physPoison, relia := { beacon := ring }
    security := { measured := boot.1, bootFailed := boot.2.isSome } }

theorem exec_moduleReset_afterReset (first : StageImage) (later : List StageImage) (s : State) :
    ∃ ring, exec (.moduleReset first later) s = .next (s.afterReset (bootStages (first :: later)) ring) := by
  rw [exec_moduleReset, execModuleReset]
  obtain ⟨passed, failed⟩ := bootStages (first :: later)
  cases failed with
  | none => exact ⟨{}, rfl⟩
  | some x =>
    obtain ⟨r, hr⟩ := beacon_of_disabled (s.afterReset (passed, some x) {}) rfl srcFront 0x63 3
      [(16, x.stage.toNat), (24, x.version.toNat)]
    exact ⟨r, congrArg Host.Outcome.next hr⟩

/-! ### Registers of window A (R6, R429) -/

theorem wordOfBytes_leBytes (v : W64) : wordOfBytes (leBytes 8 v.toNat) = v := by
  rw [wordOfBytes, leNat_leBytes, Nat.mod_eq_of_lt (show v.toNat < 256 ^ 8 from v.isLt), BitVec.ofNat_toNat,
    BitVec.setWidth_eq]

theorem length_leBytes (n v : Nat) : (leBytes n v).length = n := by
  induction n generalizing v with
  | zero => rfl
  | succ n ih => simp [leBytes, ih]

theorem exec_registerWrite_unaligned (s : State) {o : Nat} {bytes : List Byte} (h : o % 8 ≠ 0 ∨ bytes.length ≠ 8) :
    exec (.registerWrite o bytes) s = .next s := by
  rw [exec_registerWrite, execRegisterWrite, if_pos]
  rcases h with h | h <;> simp [h]

theorem exec_registerWrite_aligned {s : State} {o : Nat} {bytes : List Byte} (ho : o % 8 = 0) (hb : bytes.length = 8)
    (hw : s.hostWriting = false) : exec (.registerWrite o bytes) s = .next (s.regWrite o (wordOfBytes bytes)) := by
  rw [exec_registerWrite, execRegisterWrite, if_neg]
  simp [ho, hb, hw]

theorem queue_setQueue (s : State) (q : BitVec 6) (x : Queue) : (s.setQueue q x).queue q = x := by
  simp [State.queue, State.setQueue, Vector.getD, q.isLt]

/-- `s'` is `s` after a write of a register of window A that reads `x` afterwards. -/
def State.RegisterWritten (s s' : State) (o : Nat) (x : W64) : Prop :=
  s'.regRead o = x ∧ s'.teams = s.teams ∧ s'.vmem = s.vmem ∧ s'.security.bootFailed = s.security.bootFailed ∧
    s'.hostWriting = s.hostWriting

/-- R6: what a plain register of window A reads after a write. -/
theorem regWrite_plain (s : State) (v : W64) (hb : s.security.bootFailed = false) :
    ∀ r ∈ Claims.plainRegisters, s.RegisterWritten (s.regWrite r.1 v) r.1 (v &&& r.2) := by
  have hview := hostView_releaseTables s
  have ht := State.teams_of_hostView hview
  have hs := State.security_of_hostView hview
  have hh := State.hostPort_of_hostView hview
  simp only [Claims.plainRegisters, List.forall_mem_cons, List.not_mem_nil, false_implies, implies_true, and_true]
  refine ⟨?_, ?_, ?_, ?_, ?_, ?_, ?_, ?_, ?_, ?_⟩
  all_goals simp only [State.RegisterWritten, State.regWrite, State.regRead, State.hostWriting, hb]
  -- TLBIVA, ASIDTAB and MCBASE of the reliability block
  iterate 3
    simp [State.reliaWrite, State.reliaRead, State.writeAsidtab, State.modRelia, maskBits, tableMask, hb, ht, hs, hh,
      vmem_releaseTables]
  -- the ASIDs of the first and the last queue
  iterate 2 simp [State.frontRegWrite, State.frontRegRead, queue_setQueue, setWidth_setWidth_mask, hb]
  -- the first and the last word of the nonce, and the report's buffer
  iterate 2
    · simp [Security.write, Security.read, getD_setIfInBounds, and_fullMask, hb]
  · simp [Security.write, Security.read, maskBits, hb]
  -- the bases of the host's apertures
  iterate 2 simp [HostPort.write, HostPort.read, maskBits, hb]

/-! ### Host accesses (R429, R431) -/

theorem apertureAddr_of_low (s : State) {o : Nat} (h : o < 0x20000000) : s.apertureAddr false o = none := by
  have h' : (decide (0x20000000 ≤ o) && decide (o < 0x40000000)) = false := by
    rw [decide_eq_false (by omega), Bool.false_and]
  simp only [State.apertureAddr, Bool.false_eq_true, if_false, h']

section
variable {s : State} (hw : s.hostWriting = false)
include hw

theorem exec_hostAccess_register {o : Nat} (ho : o < 0x600000) (op : HostOp) :
    exec (.hostApertureAccess false o op) s = .next (s.hostRegister o op) := by
  rw [exec_hostApertureAccess]
  unfold execHostApertureAccess
  rw [apertureAddr_of_low s (by omega)]
  have h : ¬ 0x40000000 ≤ o := by omega
  simp [hw, h, isRegister, ho]

theorem exec_hostAccess_unused {o : Nat} (h₁ : 0x600000 ≤ o) (h₂ : o < 0x20000000) :
    (∀ n, exec (.hostApertureAccess false o (.read n)) s = .next (s.answerHost (some (.data (List.replicate n 0))))) ∧
      ∀ bytes, exec (.hostApertureAccess false o (.write bytes)) s = .next (s.answerHost (some .posted)) := by
  have h : ¬ 0x40000000 ≤ o := by omega
  have h' : ¬ o < 0x600000 := by omega
  simp [exec_hostApertureAccess, execHostApertureAccess, apertureAddr_of_low s h₂, hw, h, h', isRegister]

theorem exec_hostAccess_aperture {bulk : Bool} {o va : Nat} (ha : s.apertureAddr bulk o = some va)
    (hb : s.security.bootFailed = false) :
    (∀ n, exec (.hostApertureAccess bulk o (.read n)) s = .next (s.hostRead o va n)) ∧
      ∀ bytes, exec (.hostApertureAccess bulk o (.write bytes)) s =
        .next (s.hostWrite o (bulk, o, bytes) (bytes.length / 128 + 2) va bytes) := by
  simp [exec_hostApertureAccess, execHostApertureAccess, ha, hw, hb]

end

theorem crossing_of_none {s : State} {source : Nat} (h : Tab.find s.relia.crcNext source = none) (tag : BitVec 16)
    (va : Nat) : s.crossing source tag va = (false, s) := by
  simp [State.crossing, State.takeCrc, State.countCrc, h]

theorem agentCrc_of_none {s : State} (h : Tab.find s.relia.crcNext 4 = none) (asid : BitVec 16) (va n : Nat) :
    s.agentCrc asid va n = s := by
  simp [State.agentCrc, crossing_of_none h]

/-- A read whose bytes are there is answered; no CRC outcome waits for it (R431, R435). -/
theorem hostRead_of_done {s s₁ : State} {o va n : Nat} {bs : List Byte} {bad : Bool}
    (h : s.agentRead 0 va n = .done (bs, bad) s₁) (hc : Tab.find s₁.relia.crcNext 4 = none) :
    s.hostRead o va n = s₁.answerHost (some (.data bs)) := by
  simp only [State.hostRead, h, crossing_of_none hc]

theorem hostRead_of_refused {s : State} {o va n : Nat} (h : s.agentRead 0 va n = .refused) :
    s.hostRead o va n = (s.hostFault o false).answerHost (some .abort) := by
  simp only [State.hostRead, h]

/-- R431: a write within one line that its home accepts at once is over. -/
theorem hostWrite_of_done {s s₁ : State} {o va : Nat} {op : Bool × Nat × List Byte} {bytes : List Byte} (n : Nat)
    (hne : bytes ≠ []) (hl : va % 128 + bytes.length ≤ 128) (hn : s.writeOf .host 0 va = none)
    (h : s.agentWrite 0 va bytes none (some s.front.nextWrite) = .done () s₁)
    (hc : Tab.find s₁.relia.crcNext 4 = none) :
    s.hostWrite o op (n + 2) va bytes = (s₁.keepWrite .host 0 va .accepted).hostDone := by
  have hall : bytes.take (128 - va % 128) = bytes := List.take_of_length_le (by omega)
  have hrest : bytes.drop (128 - va % 128) = [] := List.drop_eq_nil_of_le (by omega)
  have hord : s.orderedWrite 0 .host 0 va bytes = .done () (s₁.keepWrite .host 0 va .accepted) := by
    simp only [State.orderedWrite, hn, Writer.seq, h, agentCrc_of_none hc]
  have hempty : bytes.isEmpty = false := by simpa using hne
  rw [State.hostWrite]
  simp only [hempty, hall, hord, Bool.false_eq_true, if_false]
  rw [State.hostWrite, hrest, List.isEmpty_nil, if_pos rfl]

/-! ### Reports (R438) -/

theorem leBytes_getElem? {n j : Nat} (v : Nat) (h : j < n) :
    (leBytes n v)[j]? = some (BitVec.ofNat 8 (v / 256 ^ j)) := by
  induction n generalizing v j with
  | zero => omega
  | succ n ih =>
    cases j with
    | zero => simp [leBytes]
    | succ j =>
      rw [leBytes, List.getElem?_cons_succ, ih _ (by omega), Nat.div_div_eq_div_mul, Nat.pow_succ, Nat.mul_comm]

theorem leBytes_word_getElem? (w : W64) {j : Nat} (h : j < 8) : (leBytes 8 w.toNat)[j]? = some (Claims.byteOf w j) := by
  rw [leBytes_getElem? _ h, Claims.byteOf, BitVec.extractLsb', Nat.shiftRight_eq_div_pow, Nat.pow_mul]

theorem flatMap_leBytes_getElem? {l : List W64} {i j : Nat} (hi : i < l.length) (hj : j < 8) :
    (l.flatMap fun w => leBytes 8 w.toNat)[8 * i + j]? = some (Claims.byteOf l[i] j) := by
  induction l generalizing i with
  | nil => exact absurd hi (Nat.not_lt_zero i)
  | cons w l ih =>
    rw [List.flatMap_cons]
    cases i with
    | zero =>
      rw [List.getElem?_append_left (by rw [length_leBytes]; omega)]
      simpa using leBytes_word_getElem? w hj
    | succ i =>
      rw [List.getElem?_append_right (by rw [length_leBytes]; omega), length_leBytes,
        show 8 * (i + 1) + j - 8 = 8 * i + j by omega, ih (by simpa using hi)]
      rfl

theorem length_flatMap_leBytes (l : List W64) : (l.flatMap fun w => leBytes 8 w.toNat).length = 8 * l.length := by
  induction l with
  | nil => rfl
  | cons w l ih => rw [List.flatMap_cons, List.length_append, length_leBytes, ih, List.length_cons, Nat.mul_succ,
      Nat.add_comm]

theorem length_report (x : Security) : x.report.length = 432 := by
  rw [Security.report, List.length_take, List.length_append, List.length_replicate]
  omega

theorem report_version (x : Security) : x.report.take 8 = [1, 0, 0, 0, 0, 0, 0, 0] := by
  rw [Security.report, List.take_take, show min 8 432 = 8 from rfl]
  rfl

theorem report_nonce (x : Security) {i j : Nat} (hi : i < 4) (hj : j < 8) :
    x.report[8 + 8 * i + j]? = some (Claims.byteOf (x.jobNonce.getD i 0) j) := by
  have hlen : (x.jobNonce.toList.flatMap fun w => leBytes 8 w.toNat).length = 32 := by
    rw [length_flatMap_leBytes, Vector.length_toList]
  have hn : i < x.jobNonce.toList.length := by simpa using hi
  rw [Security.report, List.getElem?_take_of_lt (by omega)]
  simp only [List.append_assoc]
  rw [List.getElem?_append_right (by rw [length_leBytes]; omega), length_leBytes,
    List.getElem?_append_left (by omega), show 8 + 8 * i + j - 8 = 8 * i + j by omega, flatMap_leBytes_getElem? hn hj]
  simp [Vector.getD, hi]

/-- The state in which the making of a report ends: BUSY falls, and ERR rises where it failed (R438). -/
def State.reportEnded (s : State) (failed : Bool) : State :=
  { s.endWrites .report with security := { s.security with busy := false, err := s.security.err || failed } }

section
variable {s : State} (hb : s.security.busy = true)
include hb

theorem exec_attestationDone_whole {s₁ s₂ : State}
    (h₁ : s.writeReport 4 (s.security.jobBuf.toNat % 2 ^ 48) s.security.report = .whole s₁)
    (h₂ : s₁.writeReport 10 (s.security.jobBuf.toNat % 2 ^ 48 + 0x200) (signature s.security.report) = .whole s₂) :
    exec .attestationDone s = .next (s₂.reportEnded false) := by
  rw [exec_attestationDone, execAttestationDone]
  simp only [hb, h₁, h₂]
  rfl

theorem exec_attestationDone_refused {s₁ : State}
    (h₁ : s.writeReport 4 (s.security.jobBuf.toNat % 2 ^ 48) s.security.report = .refused s₁) :
    exec .attestationDone s = .next (s₁.reportEnded true) := by
  rw [exec_attestationDone, execAttestationDone]
  simp only [hb, h₁]
  rfl

theorem exec_attestationDone_wait {s₁ : State}
    (h₁ : s.writeReport 4 (s.security.jobBuf.toNat % 2 ^ 48) s.security.report = .wait s₁) :
    exec .attestationDone s = .next s₁ := by
  rw [exec_attestationDone, execAttestationDone]
  simp only [hb, h₁]
  rfl

end

/-! ### The obligation -/

/-- MODULE_RESET (R437). -/
theorem moduleReset_effect (s : State) (first : StageImage) (later : List StageImage) :
    ∃ s', exec (.moduleReset first later) s = .next s' ∧ s'.teams = [] ∧ s'.gangs = [] ∧
      s'.grids = [] ∧ s'.lines = [] ∧ s'.tlb = [] ∧ s'.cores = [] ∧ s'.clusters = [] ∧ s'.dies = [] ∧ s'.phys = s.phys ∧
      s'.cycle = 0 ∧ s'.relia.asidtab = 0 ∧ s'.fabric.fmod = 0 ∧ s'.journal.en = false ∧
      ((∀ x ∈ first :: later, stageVerifies x = true) →
        s'.security.measured = first :: later ∧ s'.security.bootFailed = false) ∧
      ∀ passed x rest, first :: later = passed ++ x :: rest → (∀ y ∈ passed, stageVerifies y = true) →
        stageVerifies x = false → s'.security.measured = passed ∧ s'.security.bootFailed = true := by
  obtain ⟨ring, he⟩ := exec_moduleReset_afterReset first later s
  refine ⟨_, he, rfl, rfl, rfl, rfl, rfl, rfl, rfl, rfl, rfl, rfl, rfl, rfl, rfl, fun h => ?_,
    fun passed x rest hl h hx => ?_⟩
  · rw [bootStages_of_verified h]
    exact ⟨rfl, rfl⟩
  · rw [hl, bootStages_of_failed h hx]
    exact ⟨rfl, rfl⟩

/-- REGISTER_WRITE of a plain register, and the host's read of it (R6, R429). -/
theorem plainRegister_effect (s : State) {r : Nat × W64} (hr : r ∈ Claims.plainRegisters) (ho : s.registersOpen = true)
    (v : W64) : ∃ s',
      exec (.registerWrite r.1 (leBytes 8 v.toNat)) s = .next s' ∧ s'.regRead r.1 = v &&& r.2 ∧ s'.teams = s.teams ∧
      s'.vmem = s.vmem ∧ exec (.hostApertureAccess false r.1 (.read 8)) s' =
        .next { s' with hostPort := { s'.hostPort with reply := some (.data (leBytes 8 (v &&& r.2).toNat)) } } := by
  obtain ⟨hb, hw⟩ : s.security.bootFailed = false ∧ s.hostWriting = false := by simpa [State.registersOpen] using ho
  obtain ⟨hmod, hlow⟩ : r.1 % 8 = 0 ∧ r.1 < 0x600000 := by
    revert r; decide
  obtain ⟨hread, hteams, hvmem, -, hwriting⟩ := regWrite_plain s v hb r hr
  refine ⟨s.regWrite r.1 v, ?_, hread, hteams, hvmem, ?_⟩
  · rw [exec_registerWrite_aligned hmod (length_leBytes ..) hw, wordOfBytes_leBytes]
  · rw [exec_hostAccess_register (hwriting.trans hw) hlow, ← hread]
    simp [State.hostRegister, hmod, State.answerHost]

/-- A read of the host waits for its write that is being performed (R431). -/
theorem exec_hostRead_waiting {s : State} (hw : s.hostWriting = true) (bulk : Bool) (o n : Nat) :
    exec (.hostApertureAccess bulk o (.read n)) s = .next s := by
  rw [exec_hostApertureAccess]
  simp [execHostApertureAccess, hw]

/-- Accesses of the host to the register blocks of window A (R429). -/
theorem registerBlock_access {s : State} (hw : s.hostWriting = false) {o : Nat} (ho : o < 0x600000) :
    (∀ n, o % 8 ≠ 0 ∨ n ≠ 8 →
      exec (.hostApertureAccess false o (.read n)) s = .next (s.answerHost (some .unsupported))) ∧
    (∀ bytes, o % 8 ≠ 0 ∨ bytes.length ≠ 8 →
      exec (.hostApertureAccess false o (.write bytes)) s = .next (s.answerHost (some .unsupported))) ∧
    (o % 8 = 0 → exec (.hostApertureAccess false o (.read 8)) s =
      .next (s.answerHost (some (.data (leBytes 8 (s.regRead o).toNat))))) ∧
    ∀ bytes s', o % 8 = 0 → bytes.length = 8 → exec (.registerWrite o bytes) s = .next s' →
      exec (.hostApertureAccess false o (.write bytes)) s = .next (s'.answerHost (some .posted)) := by
  refine ⟨fun n h => ?_, fun bytes h => ?_, fun h => ?_, fun bytes s' h hl he => ?_⟩
  all_goals rw [exec_hostAccess_register hw ho]
  · rw [State.hostRegister, if_pos (by simpa using h)]
  · rw [State.hostRegister, if_pos (by simpa using h)]
  · simp [State.hostRegister, h]
  · rw [exec_registerWrite_aligned h hl hw] at he
    cases he
    simp [State.hostRegister, h, hl]

/-- Accesses of the host through its apertures (R431). -/
theorem aperture_access {s : State} {bulk : Bool} {o va : Nat} (ha : s.apertureAddr bulk o = some va)
    (hb : s.security.bootFailed = false) (hw : s.hostWriting = false) :
    (∀ n bs bad s₁, s.agentRead 0 va n = .done (bs, bad) s₁ → Tab.find s₁.relia.crcNext 4 = none →
      exec (.hostApertureAccess bulk o (.read n)) s = .next (s₁.answerHost (some (.data bs)))) ∧
    (∀ n, s.agentRead 0 va n = .refused → ∃ s', exec (.hostApertureAccess bulk o (.read n)) s = .next s' ∧
      s'.hostPort.reply = some .abort ∧ s'.teams = s.teams) ∧
    ∀ bytes s₁, bytes ≠ [] → va % 128 + bytes.length ≤ 128 → s.writeOf .host 0 va = none →
      s.agentWrite 0 va bytes none (some s.front.nextWrite) = .done () s₁ → Tab.find s₁.relia.crcNext 4 = none → ∃ s',
        exec (.hostApertureAccess bulk o (.write bytes)) s = .next s' ∧
        s'.hostPort = { s₁.hostPort with reply := some .posted, pending := none } ∧
        s'.vmem = s₁.vmem ∧ s'.gangs = s₁.gangs ∧ s'.fabric = s₁.fabric ∧ s'.teams = s₁.teams := by
  obtain ⟨hread, hwrite⟩ := exec_hostAccess_aperture hw ha hb
  refine ⟨fun n bs bad s₁ h hc => ?_, fun n h => ?_, fun bytes s₁ hne hl hn h hc => ?_⟩
  · rw [hread, hostRead_of_done h hc]
  · refine ⟨_, hread n, ?_⟩
    rw [hostRead_of_refused h]
    exact ⟨rfl, State.teams_of_hostView (s' := s.hostFault o false) (hostView_beacon ..)⟩
  · refine ⟨_, hwrite bytes, ?_⟩
    rw [hostWrite_of_done _ hne hl hn h hc]
    exact ⟨rfl, rfl, rfl, rfl, rfl⟩

/-- ATTCTL_GO (R438). -/
theorem attctlGo_effect {s : State} (hw : s.hostWriting = false) (v : W64) :
    exec (.attctlGo v) s = .next { s with security := { s.security with
      err := s.security.err && !v.getLsbD 2, busy := s.security.busy || v.getLsbD 0
      jobNonce := if v.getLsbD 0 = true ∧ s.security.busy = false then s.security.nonce else s.security.jobNonce
      jobBuf := if v.getLsbD 0 = true ∧ s.security.busy = false then s.security.buf else s.security.jobBuf } } := by
  rw [exec_attctlGo, execAttctlGo]
  simp [hw, Security.control]

/-- ATTESTATION_DONE: a report that is whole, refused, or on its way (R438). -/
theorem attestation_effect {s : State} (hb : s.security.busy = true) :
    let base := s.security.jobBuf.toNat % 2 ^ 48
    let r := s.security.report
    (∀ s₁ s₂, s.writeReport 4 base r = .whole s₁ → s₁.writeReport 10 (base + 0x200) (signature r) = .whole s₂ → ∃ s',
      exec .attestationDone s = .next s' ∧ s'.security.busy = false ∧ s'.security.err = s₂.security.err ∧
      s'.vmem = s₂.vmem ∧ s'.teams = s₂.teams) ∧
    (∀ s₁, s.writeReport 4 base r = .refused s₁ → ∃ s', exec .attestationDone s = .next s' ∧
      s'.security.busy = false ∧ s'.security.err = true) ∧
    (∀ s₁, s.writeReport 4 base r = .wait s₁ → exec .attestationDone s = .next s₁ ∧ s₁.security = s.security) := by
  refine ⟨fun s₁ s₂ h₁ h₂ => ?_, fun s₁ h => ?_, fun s₁ h => ?_⟩
  · exact ⟨_, exec_attestationDone_whole hb h₁ h₂, rfl, Bool.or_false _, rfl, rfl⟩
  · exact ⟨_, exec_attestationDone_refused hb h, rfl, Bool.or_true _⟩
  · exact ⟨exec_attestationDone_wait hb h, State.security_of_hostView (hostView_writeReport_wait h)⟩

/-- Settles O52: the events of the package, one lemma for each. -/
theorem packageEvents : Obligations.PackageEvents := by
  intro s
  refine ⟨moduleReset_effect s, fun o bytes h => exec_registerWrite_unaligned s h,
    fun r hr ho v => plainRegister_effect s hr ho v, fun hw bulk o n => exec_hostRead_waiting hw bulk o n,
    fun hw o => ⟨fun ho => registerBlock_access hw ho, fun h₁ h₂ => exec_hostAccess_unused hw h₁ h₂⟩,
    fun bulk o va ha hb hw => aperture_access ha hb hw, fun v hw => attctlGo_effect hw v,
    fun hb => ?_, fun hb => ?_, rfl⟩
  · rw [exec_attestationDone, execAttestationDone, hb]
    rfl
  · exact ⟨⟨length_report _, report_version _, fun i j hi hj => report_nonce _ hi hj⟩, attestation_effect hb⟩

end Sys2Proof.Machine
end

section
/-! SUPPORT. The decoder and the encoder are inverse (spec/02 R45, R57 to R64): what a decoded word says of its
instruction, the bytes of a word, and O57. -/

namespace Sys2Proof.Laws.Coding

/-- R60, R61: the word of any instruction names it; the coding of each constructor, in the order of `Instr`. -/
theorem candidate_of_encode (i : Instr) : Statement i :=
  i.casesOn
    sadd ssub smul smulh sand sor sxor sandn sshl sshr ssar srot smin smax sminu smaxu slea4 slea8 smulhu saddi
    sandi sshli sshri smovi sseth ssett scmp smov snot sneg spopc sclz sctz sbrev ssext32 szext32 sabs mand
    mandn mor mxor mnot mpopc mffs mset mclr mcpy br brz brnz brzm brnzm call jmpr callr ret mma mmag mzero
    mldacc mdrain mdraina mqnt mdrainb vadd vsub vmul vmulh vfma vfms vmin vmax vand vor vxor vandn vshl vshr
    vsar vrot vcmp vsel vflk vmov vneg vabs vnot vpopc vclz vflr vceil vtrnc vrnd vlane vbrev vclass vdiv vrcp
    vsqrt vrsq vexp2 vlog2 vsin vcos vtanh vsigm vexp vlog vcvt vmovs vgets vshfl vbfly vredwAdd vredwMin
    vredwMax vredwAnd vredwOr vredwXor vaddi vmovi vqnt vdqnt cpy cpyq cpyp launch publish unpub vld vldb vldh
    vldd vst vstb vsth vstd vldl vstl vldlb vstlb sld sldacq sst sstrel amoadd amoand amoor amoxor amomin amomax
    amoswp amocas cpref cprefl2 cflush cinv redadd redadds nop exit yield trap eret halt modei modew moder sysr
    sysw fence waitc rdc bararr barwait barsync bartest phadv txbegin txend txabort txstat rmap reservedEncoding
    issueSelection checkerCacheFill storeQueueDrain marginWindow deadlockBreaker trapEntry preemptionRequest
    preemptionEntry forcedPreemption systemModeOverrun restoreEntry qtail packetAcceptance teamStart teamEnd
    gridRetirement teamStop preempt vaultReport migrationScan priorityPreemption reservationGrant starvation
    gatherDone subarrayWake subarrayGating taperVerdict copyExecution engineCompletion phaseRelease
    publishCompletion windowWithdrawal txCommit amoPerform detBoundary tlbictl asidtab fqresp softError
    phaseFailure qcapUpdate qcapRise currentGrant moduleReset hostApertureAccess registerWrite attctlGo
    attestationDone telemetryUpdate modulePowerCap capEnforcement destinationAcceptance peerInvalidation
    invalidationAck fmodWrite routeWrite noUsablePlaneTimeout deathNotice boundaryMarker layerRailFault
    burstExpiry meterWindow marginPublish marginWarning laneRemoval laneRetrain laneReturn switchRemovalReport
    translationWalk dependenceEvaluation selection effectiveLevelAging gangOffer gangReoffer tallowTick
    refreshCharge tlbInvalidationDone hostLinkLoss heartbeat boundaryAck

/-- R64: a well-formed instruction passes each check of the decoder that looks at fields. -/
theorem wellFormed_iff (i : Instr) : WellFormed i = true ↔
    i.svOk = true ∧ i.subCodeOk = true ∧ i.lastReadOk = true ∧ i.scalarDestOk = true ∧ i.pairOk = true ∧
      i.immOk = true ∧ i.sysNumberOk = true := by
  simp only [WellFormed, Bool.and_eq_true, and_assoc]

/-- R64: a check that is made first is passed by every word that decodes. -/
theorem check_eq_ok_iff {p : Prop} [Decidable p] {r : Reject} {x : Except Reject Instr} {i : Instr} :
    (if p then .error r else x) = .ok i ↔ ¬ p ∧ x = .ok i := by
  split <;> simp_all

/-- R64: the words that decode: SV and MAJ are not reserved, the tables name an instruction whose word it is, and the
instruction passes the checks of its fields. -/
theorem decode_eq_ok_iff (w : W32) (i : Instr) : decode w = .ok i ↔
    fieldOf w 30 2 ≠ 3#2 ∧ majOf w ≠ 0x3F#6 ∧ candidate w = some i ∧ i.subCodeOk = true ∧ encode i = some w ∧
      i.lastReadOk = true ∧ i.scalarDestOk = true ∧ i.pairOk = true ∧ i.immOk = true ∧ i.sysNumberOk = true := by
  cases hc : candidate w with
  | none => simp [decode, hc, check_eq_ok_iff]
  | some j =>
    by_cases hj : j = i
    · subst hj
      simp [decode, hc, check_eq_ok_iff, and_assoc]
    · simp [decode, hc, check_eq_ok_iff, hj]

/-- R45, R57 to R61: the word of a well-formed instruction decodes to it. -/
theorem decode_of_encode {i : Instr} {w : W32} (he : encode i = some w) (hw : WellFormed i = true) :
    decode w = .ok i := by
  obtain ⟨hc, hmaj, hsv⟩ := candidate_of_encode i w he
  obtain ⟨hs, hsub, hlast, hdest, hpair, himm, hsys⟩ := (wellFormed_iff i).1 hw
  have hsv3 : fieldOf w 30 2 ≠ 3#2 := by simpa [hsv] using hs
  exact (decode_eq_ok_iff w i).2 ⟨hsv3, hmaj, hc, hsub, he, hlast, hdest, hpair, himm, hsys⟩

/-- R63, R64: a word that decodes is the word of its instruction, which is well formed. -/
theorem encode_of_decode {i : Instr} {w : W32} (h : decode w = .ok i) : encode i = some w ∧ WellFormed i = true := by
  obtain ⟨hsv3, -, -, hsub, he, hlast, hdest, hpair, himm, hsys⟩ := (decode_eq_ok_iff w i).1 h
  obtain ⟨-, -, hsv⟩ := candidate_of_encode i w he
  have hs : i.svOk = true := by simpa [hsv] using hsv3
  exact ⟨he, (wellFormed_iff i).2 ⟨hs, hsub, hlast, hdest, hpair, himm, hsys⟩⟩

/-- R5, R46: a word is read back from its four bytes. -/
theorem wordOfBytes_extract (w : W32) :
    wordOfBytes (w.extractLsb' 0 8) (w.extractLsb' 8 8) (w.extractLsb' 16 8) (w.extractLsb' 24 8) = w := by
  refine BitVec.eq_of_getLsbD_eq fun i hi => ?_
  simp only [wordOfBytes, BitVec.getLsbD_append, BitVec.getLsbD_extractLsb']
  grind

/-- R46: the decoder takes the first four bytes and leaves the others. -/
theorem decodeBytes_bytesOfWord {w : W32} {i : Instr} (h : decode w = .ok i) (rest : List Byte) :
    decodeBytes (bytesOfWord w ++ rest) = .ok (i, rest) := by
  simp [bytesOfWord, decodeBytes, wordOfBytes_extract, h]

/-- Settles O57: the coding of each instruction, and the decoder's checks against those of `WellFormed`. -/
theorem decodingInvertsEncoding : Obligations.DecodingInvertsEncoding :=
  ⟨fun _ _ he hw => ⟨decode_of_encode he hw, decodeBytes_bytesOfWord (decode_of_encode he hw)⟩,
    fun _ _ h => encode_of_decode h⟩

end Sys2Proof.Laws.Coding
end

section
/-! SUPPORT. Worked words of the spec (R60, R63, R64) and the trap of a reserved word: O56 and O35. -/

namespace Sys2Proof.Laws.Coding

open Sys2Proof.Machine

/-- Settles O56: each word is that of a well-formed instruction, and the two others fail their check. -/
theorem workedEncodings : Obligations.WorkedEncodings := by
  refine ⟨fun e he => ?_, rfl, rfl, rfl, rfl⟩
  have hword : encode e.2 = some e.1 ∧ WellFormed e.2 = true := by
    revert e
    decide +kernel
  obtain ⟨henc, hwf⟩ := hword
  exact decode_of_encode henc hwf

/-- R64: the word in TRAPINFO[31:0] and the reason above it do not overlap, so joining them adds them. -/
theorem word_or_reason (w : W32) (n : Nat) :
    w.setWidth 64 ||| BitVec.ofNat 64 (n * 2 ^ 32) = w.setWidth 64 + BitVec.ofNat 64 (2 ^ 32 * n) := by
  rw [Nat.mul_comm n, BitVec.add_eq_or_of_and_eq_zero]
  refine BitVec.eq_of_getLsbD_eq fun i hi => ?_
  by_cases h : i < 32
  · rw [BitVec.getLsbD_and, BitVec.getLsbD_ofNat, Nat.testBit_two_pow_mul, decide_eq_false (by omega : ¬ 32 ≤ i)]
    simp
  · simp [BitVec.getLsbD_of_ge w i (by omega)]

/-- Settles O35: the check of a reserved word is the decoder's. -/
theorem reservedWordsTrap : Obligations.ReservedWordsTrap := by
  intro w s k t e hdec hissue
  rw [exec_reservedEncoding]
  refine (issueChecked_trap (r := t.illegal w e.reason) _ hissue (by rw [hdec])).trans ?_
  rw [Team.illegal, Team.at, word_or_reason]

end Sys2Proof.Laws.Coding
end

section
/-! SUPPORT. Mask blocks (R109) and branches (R117): when a block fits its file, its mask bits as the bits of a number,
O6 and O7. -/

namespace Sys2Proof.Machine

/-! ### Blocks beyond their file -/

/-- R109: check 10 fails for the blocks that do not fit. -/
theorem blockBeyond_eq_true_iff (t : Team) (f : BitVec 7) :
    t.blockBeyond f.toNat = true ↔ ¬ Claims.blockFits t f :=
  decide_eq_true_iff.trans Nat.not_le.symm

/-- R64, R109: a mask instruction one of whose blocks does not fit traps with reason 10. -/
theorem maskOp_beyond {i : Instr} {s : State} {k : Nat} {t : Team} {srcs dst one : List (BitVec 7)} (g : Team → Team)
    (hb : ¬ ∀ b ∈ srcs ++ dst, Claims.blockFits t b)
    (hi : s.CanIssue k t (((srcs ++ dst).flatMap fun b => Claims.blockRange t b.toNat) ++ one.map (·.toNat))) :
    maskOp i s srcs dst one g = .next (s.raise k (t.illegal (wordOf i) 10)) := by
  have hany : (srcs ++ dst).any (fun b => t.blockBeyond b.toNat) = true := by
    simpa only [List.any_eq_true, blockBeyond_eq_true_iff, Classical.not_forall, exists_prop] using hb
  exact issueChecked_trap _ hi (by rw [hany]; rfl)

/-- R57: a short scalar field names the s register that it numbers. -/
theorem shortField_toNat (n : BitVec 6) : (n.setWidth 7).toNat = n.toNat :=
  BitVec.toNat_setWidth_of_le (by decide)

/-- R64, R109: a branch on a block that does not fit traps with reason 10. -/
theorem branchMask_beyond {i : Instr} {f : BX} {s : State} {k : Nat} {t : Team} (c : Nat → Bool)
    (hb : ¬ Claims.blockFits t (f.s.setWidth 7)) (hi : s.CanIssue k t (Claims.blockRange t f.s.toNat)) :
    branchMask i f s c = .next (s.raise k (t.illegal (wordOf i) 10)) := by
  have hbeyond : t.blockBeyond f.s.toNat = true := by
    rwa [← blockBeyond_eq_true_iff, shortField_toNat] at hb
  exact issueChecked_trap _ hi (by rw [hbeyond]; rfl)

/-- Settles O6: each mask instruction is a `maskOp` or a `branchMask` over its blocks. -/
theorem blockBeyondItsFileTraps : Obligations.BlockBeyondItsFileTraps := by
  intro s k t _
  simp only [List.forall_mem_cons, List.not_mem_nil, false_imp_iff, implies_true, and_true]
  refine ⟨fun f hb hi => ?_, fun f hb hi => ?_, fun f hb hi => ?_, fun f hb hi => ?_, fun f hb hi => ?_⟩
  · have htrap (i op) : maskAlu i f s op = .next (s.raise k (t.illegal (wordOf i) 10)) :=
      maskOp_beyond _ (by simpa using hb) (by simpa using hi)
    exact ⟨(exec_mand f s).trans (htrap _ _), (exec_mandn f s).trans (htrap _ _), (exec_mor f s).trans (htrap _ _),
      (exec_mxor f s).trans (htrap _ _)⟩
  · have htrap (i g) : maskOp i s [f.a] [f.d] [] g = .next (s.raise k (t.illegal (wordOf i) 10)) :=
      maskOp_beyond g (by simpa using hb) (by simpa using hi)
    exact ⟨(exec_mnot f s).trans (htrap _ _), (exec_mcpy f s).trans (htrap _ _)⟩
  · have htrap (i g) : maskOp i s [] [f.d] [] g = .next (s.raise k (t.illegal (wordOf i) 10)) :=
      maskOp_beyond g (by simpa using hb) (by simpa using hi)
    exact ⟨(exec_mset f s).trans (htrap _ _), (exec_mclr f s).trans (htrap _ _)⟩
  · have htrap (i g) : maskOp i s [f.a] [] [f.d] g = .next (s.raise k (t.illegal (wordOf i) 10)) :=
      maskOp_beyond g (by simpa using hb) (by simpa using hi)
    exact ⟨(exec_mpopc f s).trans (htrap _ _), (exec_mffs f s).trans (htrap _ _)⟩
  · exact ⟨(exec_brzm f s).trans (branchMask_beyond _ hb hi), (exec_brnzm f s).trans (branchMask_beyond _ hb hi)⟩

/-! ### The bits of a block -/

/-- Bit `j` of joined registers is bit `j % 64` of register `j / 64`. -/
theorem testBit_joinRegs (l : List W64) (j : Nat) :
    (joinRegs l).testBit j = (l.getD (j / 64) 0).getLsbD (j % 64) := by
  induction l generalizing j with
  | nil => simp [joinRegs]
  | cons r l ih =>
    rw [joinRegs, Nat.add_comm]
    by_cases h : j < 64
    · rw [Nat.testBit_two_pow_mul_add _ r.isLt, if_pos h, Nat.div_eq_of_lt h, Nat.mod_eq_of_lt h]
      rfl
    · obtain ⟨m, rfl⟩ := Nat.exists_eq_add_of_le' (Nat.le_of_not_lt h)
      rw [Nat.testBit_two_pow_mul_add _ r.isLt, if_neg h, Nat.add_sub_cancel, ih, Nat.add_div_right _ (by omega),
        Nat.add_mod_right]
      rfl

/-- R12: the registers of a block hold a bit for every lane. -/
theorem lanes_le_blockRegs {t : Team} (h : Claims.legalLanes t) : t.lanes ≤ 64 * t.blockRegs := by
  simp only [Claims.legalLanes, List.mem_cons, List.not_mem_nil, or_false] at h
  unfold Team.blockRegs
  omega

/-- R109: bit `j` of a block, as a number, is its mask bit `j`. -/
theorem testBit_block {t : Team} {j : Nat} (hl : Claims.legalLanes t) (f : BitVec 7) (hj : j < t.lanes) :
    (t.block f.toNat).testBit j = Claims.maskBit t f j := by
  have hreg : j / 64 < t.blockRegs := by have := lanes_le_blockRegs hl; omega
  rw [Team.block, Nat.testBit_mod_two_pow, decide_eq_true hj, Bool.true_and, testBit_joinRegs]
  simp [Team.blockFields, List.getD_eq_getElem?_getD, hreg, Claims.maskBit]

/-- R109: the mask bits of a short field's block that fits lie in the s file. -/
theorem maskBit_shortField {t : Team} {n : BitVec 6} {j : Nat} (hl : Claims.legalLanes t)
    (hn : Claims.blockFits t (n.setWidth 7)) (hj : j < t.lanes) :
    Claims.maskBit t (n.setWidth 7) j = Claims.blockBit t n.toNat j := by
  have hreg : j / 64 < max 1 (t.lanes / 64) := by
    have : t.lanes ≤ 64 * max 1 (t.lanes / 64) := lanes_le_blockRegs hl
    omega
  have hfile : n.toNat + j / 64 < 64 := by
    rw [Claims.blockFits, shortField_toNat, Nat.mod_eq_of_lt n.isLt] at hn
    omega
  have hval : (BitVec.ofNat 7 (n.toNat + j / 64)).toNat = n.toNat + j / 64 := by
    rw [BitVec.toNat_ofNat]; omega
  rw [Claims.maskBit, shortField_toNat, Team.src, hval, if_pos hfile, Claims.blockBit]

/-- R109, R117: a short field's block is 0 where every mask bit is clear. -/
theorem block_eq_zero_iff {t : Team} {n : BitVec 6} (hl : Claims.legalLanes t)
    (hn : Claims.blockFits t (n.setWidth 7)) :
    t.block n.toNat = 0 ↔ ∀ j, j < t.lanes → Claims.blockBit t n.toNat j = false := by
  have hbit {j : Nat} (hj : j < t.lanes) : (t.block n.toNat).testBit j = Claims.blockBit t n.toNat j := by
    rw [← maskBit_shortField hl hn hj, ← testBit_block hl _ hj, shortField_toNat]
  constructor
  · intro h j hj
    rw [← hbit hj, h, Nat.zero_testBit]
  · intro h
    refine Nat.eq_of_testBit_eq fun j => ?_
    rw [Nat.zero_testBit]
    by_cases hj : j < t.lanes
    · rw [hbit hj, h j hj]
    · simp [Team.block, Nat.testBit_mod_two_pow, hj]

/-- R373: the DET record of an instruction's reads changes no block of the team. -/
theorem reading_block (t : Team) (uses : List Nat) (n : Nat) : (t.reading uses).block n = t.block n := by
  rw [reading_eq]; rfl

theorem reading_pc (t : Team) (uses : List Nat) : (t.reading uses).pc = t.pc := by
  rw [reading_eq]

/-! ### Branches -/

/-- R117: the target is taken modulo 2^48. -/
theorem branchTarget_eq (t : Team) (o : BitVec 18) : t.branchTarget o = Claims.branchTarget t o := by
  rw [Claims.branchTarget, BitVec.ofInt_add, BitVec.ofInt_mul]
  simp [Team.branchTarget, BitVec.signExtend]

/-- An instruction that does nothing but retire at `pc` goes to `pc`. -/
theorem goesTo_of_retireTo {i : Instr} {s : State} {k : Nat} {t : Team} {uses : List Nat} {pc : Addr}
    (h : exec i s = .next (s.setTeam k ((t.reading uses).retireTo pc))) : Claims.GoesTo i s k t uses [] pc none :=
  ⟨_, h, keepsRest_setTeam s k _, retireTo_Retired _ pc, nofun⟩

/-- R117: a branch retires at its target or at the next word. -/
theorem commit_branch (s : State) (k : Nat) (t : Team) (uses : List Nat) (o : BitVec 18) (c : Bool) :
    s.commit k (if c then (t.reading uses).retireTo ((t.reading uses).branchTarget o) else (t.reading uses).retire) =
      .next (s.setTeam k ((t.reading uses).retireTo (if c then Claims.branchTarget t o else t.pc + 4))) := by
  cases c
  · simp [Team.retire, reading_pc]
  · simp [branchTarget_eq, Claims.branchTarget, reading_pc]

/-- R117: a branch on a condition of the team. -/
theorem branch_goesTo {i : Instr} {f : BX} {s : State} {k : Nat} {t : Team} {uses : List Nat} {c : Team → Bool}
    (he : exec i s = branch f s uses c) (h : s.CanIssueScalar k t uses) (hc : c (t.reading uses) = c t) :
    Claims.GoesTo i s k t uses [] (if c t then Claims.branchTarget t f.o else t.pc + 4) none := by
  refine goesTo_of_retireTo (he.trans ?_)
  rw [branch, issueScalar_eq _ h, commit_branch, hc]

/-- R117: a branch on a block that fits. -/
theorem branchMask_goesTo {i : Instr} {f : BX} {s : State} {k : Nat} {t : Team} {c : Nat → Bool}
    (he : exec i s = branchMask i f s c) (hb : Claims.blockFits t (f.s.setWidth 7))
    (h : s.CanIssueScalar k t (Claims.blockRange t f.s.toNat)) :
    Claims.GoesTo i s k t (Claims.blockRange t f.s.toNat) []
      (if c (t.block f.s.toNat) then Claims.branchTarget t f.o else t.pc + 4) none := by
  have hfits : t.blockBeyond f.s.toNat = false := by
    rwa [← Bool.not_eq_true, ← shortField_toNat, blockBeyond_eq_true_iff, Classical.not_not]
  refine goesTo_of_retireTo (he.trans ?_)
  rw [branchMask, issueChecked_eq (t := t) _ h (by rw [hfits]; rfl), commit_branch, reading_block]
  rfl

/-- R117: CALL links and goes to its target. -/
theorem call_goesTo {f : BX} {s : State} {k : Nat} {t : Team} (h : s.CanIssueScalar k t [f.s.toNat]) :
    Claims.GoesTo (.call f) s k t [f.s.toNat] [f.s.toNat] (Claims.branchTarget t f.o)
      (some (f.s.toNat, (t.pc + 4).setWidth 64)) := by
  have hexec : exec (.call f) s = .next (s.setTeam k
      (((t.reading [f.s.toNat]).setS f.s.toNat ((t.pc + 4).setWidth 64)).retireTo (Claims.branchTarget t f.o))) := by
    rw [exec_call, execCall, issueScalar_eq _ h, commit_eq, branchTarget_eq, Claims.branchTarget, reading_pc,
      Claims.branchTarget]
  refine ⟨_, hexec, keepsRest_setTeam s k _, setS_retireTo _ _ _ _, ?_⟩
  rintro _ ⟨⟩
  rw [retireTo_sreg, setS_sreg_same _ _ f.s.isLt]

/-- Settles O7: the scalar branches, CALL, and the branches on a block. -/
theorem branchTargets : Obligations.BranchTargets := by
  intro f s k t
  refine ⟨fun h => branch_goesTo (exec_br f s) h rfl, fun h => ⟨?_, ?_, call_goesTo h⟩, fun hl hb h => ?_⟩
  · simpa using branch_goesTo (exec_brz f s) h (by rw [reading_sreg])
  · simpa [ite_not] using branch_goesTo (exec_brnz f s) h (by rw [reading_sreg])
  · have hzero := block_eq_zero_iff hl hb
    refine ⟨?_, ?_⟩
    · simpa [hzero] using branchMask_goesTo (exec_brzm f s) hb h
    · simpa [hzero] using branchMask_goesTo (exec_brnzm f s) hb h

end Sys2Proof.Machine
end

section
/-! SUPPORT. Scalar instructions (spec/04 R110 to R114): the operations of the tables as the model computes them, and O1
to O4. -/

namespace Sys2Proof.Machine

/-! ### One scalar register written -/

/-- An instruction whose whole effect is a register written and its retirement. -/
theorem writesScalar_of_setS {i : Instr} {s : State} {k : Nat} {t : Team} {uses : List Nat} {d : Nat} {v : W64}
    (he : exec i s = .next (s.setTeam k ((t.reading uses).setS d v).retire)) :
    Claims.WritesScalar i s k t uses d v := by
  refine ⟨_, he, keepsRest_setTeam .., ?_, fun hd => ?_⟩
  · rw [← reading_pc t uses]
    exact setS_retireTo ..
  · rw [Team.retire, retireTo_sreg, setS_sreg_same _ _ hd]

/-- R107: an instruction that is a `scalarTo` completes with its value in its destination. -/
theorem scalarTo_writesScalar {i : Instr} {s : State} {k : Nat} {t : Team} {srcs : List (BitVec 7)} {d : BitVec 7}
    {v : Team → W64} {x : W64} (he : exec i s = scalarTo s srcs d v)
    (h : s.CanIssueScalar k t (d.toNat :: srcs.map (·.toNat)))
    (hv : ∀ uses, v (t.reading uses) = x) :
    Claims.WritesScalar i s k t (d.toNat :: srcs.map (·.toNat)) d.toNat x :=
  writesScalar_of_setS <| by rw [he, scalarTo, issueScalar_eq _ h, hv, commit_eq]

/-! ### The operations of R110 -/

/-- The bits of a product above its low half, of its exact value. -/
theorem extractLsb'_ofInt (z : Int) : (BitVec.ofInt 128 z).extractLsb' 64 64 = BitVec.ofInt 64 (z / 2 ^ 64) := by
  refine BitVec.eq_of_toNat_eq ?_
  rw [BitVec.extractLsb'_toNat, BitVec.toNat_ofInt, BitVec.toNat_ofInt, Nat.shiftRight_eq_div_pow]
  omega

theorem mulHighS_eq (a b : W64) : mulHighS a b = (a.signExtend 128 * b.signExtend 128).extractLsb' 64 64 := by
  rw [BitVec.signExtend, BitVec.signExtend, ← BitVec.ofInt_mul, extractLsb'_ofInt, mulHighS]

theorem mulHighU_eq (a b : W64) : mulHighU a b = (a.setWidth 128 * b.setWidth 128).extractLsb' 64 64 := by
  have hab : a.toNat * b.toNat < 2 ^ 128 := Nat.lt_of_lt_of_eq (Nat.mul_lt_mul'' a.isLt b.isLt) (by decide)
  refine BitVec.eq_of_toNat_eq ?_
  rw [mulHighU, BitVec.toNat_ofNat, BitVec.extractLsb'_toNat, BitVec.toNat_mul,
    BitVec.toNat_setWidth_of_le (by decide), BitVec.toNat_setWidth_of_le (by decide), Nat.mod_eq_of_lt hab,
    Nat.shiftRight_eq_div_pow]

theorem rotateLeft_amount (a b : W64) :
    a.rotateLeft (amount b) = a <<< (b.toNat % 64) ||| a >>> (64 - b.toNat % 64) := by
  rw [amount, BitVec.rotateLeft, BitVec.rotateLeftAux, Nat.mod_mod]

theorem smin_eq (a b : W64) : (if a.slt b then a else b) = BitVec.ofInt 64 (min a.toInt b.toInt) := by
  by_cases h : a.toInt < b.toInt
  · rw [if_pos (BitVec.slt_iff_toInt_lt.2 h), Int.min_eq_left (Int.le_of_lt h), BitVec.ofInt_toInt]
  · rw [if_neg (mt BitVec.slt_iff_toInt_lt.1 h), Int.min_eq_right (Int.not_lt.1 h), BitVec.ofInt_toInt]

theorem smax_eq (a b : W64) : (if a.slt b then b else a) = BitVec.ofInt 64 (max a.toInt b.toInt) := by
  by_cases h : a.toInt < b.toInt
  · rw [if_pos (BitVec.slt_iff_toInt_lt.2 h), Int.max_eq_right (Int.le_of_lt h), BitVec.ofInt_toInt]
  · rw [if_neg (mt BitVec.slt_iff_toInt_lt.1 h), Int.max_eq_left (Int.not_lt.1 h), BitVec.ofInt_toInt]

theorem sminu_eq (a b : W64) : (if a.ult b then a else b) = BitVec.ofNat 64 (min a.toNat b.toNat) := by
  by_cases h : a.toNat < b.toNat
  · rw [if_pos (BitVec.ult_iff_toNat_lt.2 h), Nat.min_eq_left (Nat.le_of_lt h), BitVec.ofNat_toNat, BitVec.setWidth_eq]
  · rw [if_neg (mt BitVec.ult_iff_toNat_lt.1 h), Nat.min_eq_right (Nat.not_lt.1 h), BitVec.ofNat_toNat, BitVec.setWidth_eq]

theorem smaxu_eq (a b : W64) : (if a.ult b then b else a) = BitVec.ofNat 64 (max a.toNat b.toNat) := by
  by_cases h : a.toNat < b.toNat
  · rw [if_pos (BitVec.ult_iff_toNat_lt.2 h), Nat.max_eq_right (Nat.le_of_lt h), BitVec.ofNat_toNat, BitVec.setWidth_eq]
  · rw [if_neg (mt BitVec.ult_iff_toNat_lt.1 h), Nat.max_eq_left (Nat.not_lt.1 h), BitVec.ofNat_toNat, BitVec.setWidth_eq]

theorem shiftLeft_two_eq_mul (b : W64) : b <<< 2 = 4 * b := by
  rw [BitVec.shiftLeft_eq_mul_twoPow, BitVec.mul_comm]; rfl

theorem shiftLeft_three_eq_mul (b : W64) : b <<< 3 = 8 * b := by
  rw [BitVec.shiftLeft_eq_mul_twoPow, BitVec.mul_comm]; rfl

/-- R110: each instruction of the table computes its result from its two sources. -/
theorem exec_scalar3 : ∀ e ∈ Claims.scalar3Results, ∀ (f : S3) (s : State), exec (e.1 f) s = scalar3 f s e.2 := by
  have hop {f : S3} {s : State} {op g : W64 → W64 → W64} (h : ∀ a b, op a b = g a b) :
      scalar3 f s op = scalar3 f s g := by rw [funext fun a => funext (h a)]
  simp only [Claims.scalar3Results, List.forall_mem_cons, List.not_mem_nil, false_implies, implies_true, and_true]
  exact ⟨exec_sadd, exec_ssub, exec_smul, fun f s => (exec_smulh f s).trans (hop mulHighS_eq), exec_sand, exec_sor,
    exec_sxor, exec_sandn, exec_sshl, exec_sshr, exec_ssar, fun f s => (exec_srot f s).trans (hop rotateLeft_amount),
    fun f s => (exec_smin f s).trans (hop smin_eq), fun f s => (exec_smax f s).trans (hop smax_eq),
    fun f s => (exec_sminu f s).trans (hop sminu_eq), fun f s => (exec_smaxu f s).trans (hop smaxu_eq),
    fun f s => (exec_slea4 f s).trans (hop fun a b => by rw [shiftLeft_two_eq_mul]),
    fun f s => (exec_slea8 f s).trans (hop fun a b => by rw [shiftLeft_three_eq_mul]),
    fun f s => (exec_smulhu f s).trans (hop mulHighU_eq)⟩

/-- Settles O1, from the operation of each instruction of the table. -/
theorem scalarThreeOperandResults : Obligations.ScalarThreeOperandResults := fun e he f s _ t h =>
  scalarTo_writesScalar (srcs := [f.a, f.b]) (exec_scalar3 e he f s) h fun uses => by
    simp only [reading_src]

/-! ### Immediates and constants -/

/-- R112: SSETH and SSETT keep the low bits and sign-extend the immediate above them. -/
theorem getLsbD_setField {n m j : Nat} (hm : m + n = 64) (hj : j < 64) (d : W64) (i : BitVec 17) :
    (setField d n i).getLsbD j = (i.signExtend m ++ d.extractLsb' 0 n).getLsbD j := by
  rw [setField, BitVec.getLsbD_append, BitVec.getLsbD_or, BitVec.getLsbD_shiftLeft, BitVec.getLsbD_ofNat,
    Nat.testBit_mod_two_pow, BitVec.testBit_toNat, BitVec.getLsbD_signExtend, BitVec.getLsbD_signExtend]
  by_cases hn : j < n
  · simp [hn, hj]
  · have hjm : j - n < m := by omega
    have hjw : j - n < 64 := by omega
    simp [hn, hj, hjm, hjw]

/-- R112: each instruction of the table sets its field of the register. -/
theorem exec_scalarConst :
    ∀ e ∈ Claims.scalarConstResults, ∀ (f : LI) (s : State), exec (e.1 f) s = scalarConst f s e.2 := by
  have hop {f : LI} {s : State} {op g : W64 → BitVec 17 → W64} (h : ∀ d i, op d i = g d i) :
      scalarConst f s op = scalarConst f s g := by rw [funext fun a => funext (h a)]
  simp only [Claims.scalarConstResults, List.forall_mem_cons, List.not_mem_nil, false_implies, implies_true, and_true]
  refine ⟨exec_smovi, fun f s => (exec_sseth f s).trans (hop fun d i => ?_),
    fun f s => (exec_ssett f s).trans (hop fun d i => ?_)⟩
  · refine BitVec.eq_of_getLsbD_eq fun j hj => ?_
    rw [getLsbD_setField (m := 47) rfl hj]
  · refine BitVec.eq_of_getLsbD_eq fun j hj => ?_
    rw [getLsbD_setField (m := 30) rfl hj]

/-- R111: an instruction with a signed immediate. -/
theorem scalarImm_writesScalar {i : Instr} {f : SI} {s : State} {k : Nat} {t : Team} {op : W64 → W64 → W64}
    (he : exec i s = scalarImm f s op) (h : s.CanIssueScalar k t [f.d.toNat, f.a.toNat]) :
    Claims.WritesScalar i s k t [f.d.toNat, f.a.toNat] f.d.toNat (op (t.src f.a) (f.i.signExtend 64)) :=
  scalarTo_writesScalar (srcs := [f.a]) he h fun uses => by rw [reading_src]

/-- R111: a shift by an immediate. -/
theorem scalarShift_writesScalar {i : Instr} {f : SH} {s : State} {k : Nat} {t : Team} {op : W64 → Nat → W64}
    (he : exec i s = scalarShift f s op) (h : s.CanIssueScalar k t [f.d.toNat, f.a.toNat]) :
    Claims.WritesScalar i s k t [f.d.toNat, f.a.toNat] f.d.toNat (op (t.src f.a) f.i.toNat) :=
  scalarTo_writesScalar (srcs := [f.a]) he h fun uses => by rw [reading_src]

/-- Settles O2: the forms with IMM10 (R111) and with IMM17 (R112). -/
theorem scalarImmediateAndConstantResults : Obligations.ScalarImmediateAndConstantResults :=
  ⟨⟨fun f s _ _ h => ⟨scalarImm_writesScalar (exec_saddi f s) h, scalarImm_writesScalar (exec_sandi f s) h⟩,
      fun f s _ _ h => ⟨scalarShift_writesScalar (exec_sshli f s) h, scalarShift_writesScalar (exec_sshri f s) h⟩⟩,
    fun e he f s _ t h => scalarTo_writesScalar (srcs := [f.d]) (exec_scalarConst e he f s) h fun uses => by
      rw [reading_src]⟩

/-! ### Comparison -/

theorem not_slt_eq (a b : W64) : (!a.slt b) = decide (b.toInt ≤ a.toInt) := by
  rw [BitVec.slt, ← decide_not]
  exact decide_eq_decide.2 Int.not_lt

theorem not_ult_eq (a b : W64) : (!a.ult b) = decide (b.toNat ≤ a.toNat) := by
  rw [BitVec.ult, ← decide_not]
  exact decide_eq_decide.2 Nat.not_lt

/-- R113: the conditions, by the value of C. -/
theorem scalarCond_eq (c : BitVec 3) (a b : W64) :
    scalarCond c a b = (Claims.scalarConditions.getD c.toNat fun _ _ => false) a b := by
  have hc : c.toNat < 8 := c.isLt
  unfold scalarCond
  generalize c.toNat = n at hc
  exact match n, hc with
    | 0, _ => rfl -- EQ
    | 1, _ => (decide_not ..).symm -- NE
    | 2, _ => rfl -- LT
    | 3, _ => not_slt_eq a b -- GE
    | 4, _ => rfl -- LTU
    | 5, _ => not_ult_eq a b -- GEU
    | 6, _ => (decide_not ..).symm -- TST
    | 7, _ => rfl -- NTST

/-- Settles O3: the word of SCMP, and its eight conditions. -/
theorem scalarCompareResult : Obligations.ScalarCompareResult :=
  ⟨fun _ => rfl, fun f s _ t h =>
    scalarTo_writesScalar (srcs := [f.a, f.b]) (exec_scmp f s) h fun uses => by
      simp only [reading_src, scalarCond_eq]⟩

/-! ### The functions of R114 -/

/-- The number of set bits below `n`, bit by bit. -/
theorem popCount_eq_countP (n x : Nat) : popCount n x = (List.range n).countP (x.testBit ·) := by
  induction n generalizing x with
  | zero => rfl
  | succ n ih =>
    rw [popCount, ih, List.range_succ_eq_map, List.countP_cons, List.countP_map, Nat.add_comm]
    simp only [Function.comp_def, Nat.testBit_succ, Nat.testBit_zero, decide_eq_true_eq]
    congr 1
    split <;> omega

/-- The numbers below `n` that stand before the first one without `p`. -/
theorem length_takeWhile_range {n m : Nat} {p : Nat → Bool} (hm : m ≤ n) (hp : ∀ i, i < m → p i = true)
    (hend : m < n → p m = false) : ((List.range n).takeWhile p).length = m := by
  obtain ⟨l, rfl⟩ := Nat.exists_eq_add_of_le hm
  rw [List.range_add, List.takeWhile_append_of_pos (by simpa using hp), List.length_append, List.length_range]
  cases l with
  | zero => simp
  | succ l => simp [List.range_succ_eq_map, hend (by omega)]

theorem leadZeros_eq (a : W64) :
    leadZeros 64 a.toNat = ((List.range 64).takeWhile fun i => !a.getLsbD (63 - i)).length := by
  unfold leadZeros
  split
  · next h =>
    have ha : a = 0 := BitVec.eq_of_toNat_eq h
    exact (length_takeWhile_range (Nat.le_refl 64) (by simp [ha]) (by omega)).symm
  · next h =>
    have hlog : a.toNat.log2 < 64 := (Nat.log2_lt h).2 a.isLt
    refine (length_takeWhile_range (by omega) (fun i hi => ?_) fun _ => ?_).symm
    · rw [← BitVec.testBit_toNat, Nat.testBit_lt_two_pow, Bool.not_false]
      exact (Nat.log2_lt h).1 (by omega)
    · rw [← BitVec.testBit_toNat, show 63 - (64 - 1 - a.toNat.log2) = a.toNat.log2 by omega, Nat.testBit_log2 h,
        Bool.not_true]

theorem trailZeros_eq (a : W64) :
    trailZeros 64 a.toNat = ((List.range 64).takeWhile fun i => !a.getLsbD i).length := by
  unfold trailZeros
  symm
  cases h : (List.range 64).find? (a.toNat.testBit ·) with
  | none =>
    rw [List.find?_range_eq_none] at h
    exact length_takeWhile_range (Nat.le_refl 64) (by simpa [BitVec.testBit_toNat] using h) (by simp)
  | some n =>
    obtain ⟨hn, hlt, hbelow⟩ := List.find?_range_eq_some.1 h
    rw [BitVec.testBit_toNat] at hn
    exact length_takeWhile_range (Nat.le_of_lt (List.mem_range.1 hlt)) (by simpa [BitVec.testBit_toNat] using hbelow)
      fun _ => by rw [Option.getD_some, hn, Bool.not_true]

/-- Bit `i` of reversed bits is bit `w - 1 - i`. -/
theorem testBit_revBits (w x i : Nat) : (revBits w x).testBit i = (decide (i < w) && x.testBit (w - 1 - i)) := by
  unfold revBits
  induction w generalizing i with
  | zero => simp
  | succ w ih =>
    rw [List.range_succ, List.foldl_append, List.foldl_cons, List.foldl_nil]
    cases i with
    | zero => cases h : x.testBit w <;> simp [h, Nat.testBit_zero]
    | succ i =>
      simp only [Nat.testBit_succ, show w + 1 - 1 - (i + 1) = w - 1 - i by omega, Nat.add_lt_add_iff_right, ← ih]
      congr 1
      split <;> omega

theorem revBits_eq_reverse (a : W64) : BitVec.ofNat 64 (revBits 64 a.toNat) = a.reverse := by
  refine BitVec.eq_of_getLsbD_eq fun i hi => ?_
  rw [BitVec.getLsbD_ofNat, testBit_revBits, BitVec.getLsbD_reverse, BitVec.getMsbD_eq_getLsbD, BitVec.testBit_toNat]
  simp [hi]

theorem sabs_eq (a : W64) : (if a.msb then -a else a) = if 0 ≤ a.toInt then a else 0 - a := by
  by_cases h : 0 ≤ a.toInt
  · rw [BitVec.msb_eq_toInt, decide_eq_false (Int.not_lt.2 h), if_neg Bool.false_ne_true, if_pos h]
  · rw [BitVec.msb_eq_toInt, decide_eq_true (Int.not_le.1 h), if_pos rfl, if_neg h]
    exact (BitVec.zero_sub a).symm

/-- R114: each instruction of the table computes its function. -/
theorem exec_scalarFn : ∀ e ∈ Claims.scalarFnResults, ∀ (f : FS) (s : State), exec (e.1 f) s = scalarFn f s e.2 := by
  have hop {f : FS} {s : State} {op g : W64 → W64} (h : ∀ a, op a = g a) : scalarFn f s op = scalarFn f s g := by
    rw [funext h]
  simp only [Claims.scalarFnResults, List.forall_mem_cons, List.not_mem_nil, false_implies, implies_true, and_true]
  exact ⟨exec_smov, exec_snot, fun f s => (exec_sneg f s).trans (hop fun a => (BitVec.zero_sub a).symm),
    fun f s => (exec_spopc f s).trans (hop fun a => by rw [popCount_eq_countP]; rfl),
    fun f s => (exec_sclz f s).trans (hop fun a => by rw [leadZeros_eq]),
    fun f s => (exec_sctz f s).trans (hop fun a => by rw [trailZeros_eq]),
    fun f s => (exec_sbrev f s).trans (hop revBits_eq_reverse),
    fun f s => (exec_ssext32 f s).trans (hop fun a => by rw [BitVec.setWidth_eq_extractLsb' (by decide)]),
    fun f s => (exec_szext32 f s).trans (hop fun a => setWidth_setWidth_mask a (k := 32) (by decide)),
    fun f s => (exec_sabs f s).trans (hop sabs_eq)⟩

/-- Settles O4, from the function of each instruction of the table. -/
theorem scalarFunctionResults : Obligations.ScalarFunctionResults := fun e he f s _ t h =>
  scalarTo_writesScalar (srcs := [f.a]) (exec_scalarFn e he f s) h fun uses => by rw [reading_src]

end Sys2Proof.Machine
end

section
/-! SUPPORT. Mask instructions (spec/04 R115, R116): the registers and bits of a block written, and O5. -/

namespace Sys2Proof.Machine

/-! ### Registers written from a number -/

/-- A write of consecutive registers changes no more than the s file. -/
theorem setRegs_frame (t : Team) (n v m : Nat) : ∃ r, t.setRegs n v m = { t with s := r } := by
  induction m generalizing t n v with
  | zero => exact ⟨t.s, rfl⟩
  | succ m ih =>
    obtain ⟨r, hr⟩ := ih (t.setS n (BitVec.ofNat 64 v)) (n + 1) (v / 2 ^ 64)
    exact ⟨r, hr⟩

theorem setRegs_sreg_of_not_mem (t : Team) {n m r : Nat} (v : Nat) (h : r ∉ (List.range m).map (n + ·)) :
    (t.setRegs n v m).sreg r = t.sreg r := by
  induction m generalizing t n v with
  | zero => rfl
  | succ m ih =>
    rw [List.range_succ_eq_map, List.map_cons, List.map_map, List.mem_cons, not_or] at h
    obtain ⟨hne, hrest⟩ := h
    rw [Team.setRegs, ih, setS_sreg_ne _ _ (by omega)]
    simpa [Nat.add_right_comm, Nat.add_assoc, Nat.add_comm 1] using hrest

/-- Register `n + i` takes the `i`-th 64 bits of the number. -/
theorem setRegs_sreg_of_lt (t : Team) {n m i : Nat} (v : Nat) (hi : i < m) (hfile : n + i < 64) :
    (t.setRegs n v m).sreg (n + i) = BitVec.ofNat 64 (v / 2 ^ (64 * i)) := by
  induction m generalizing t n v i with
  | zero => exact absurd hi (Nat.not_lt_zero i)
  | succ m ih =>
    rw [Team.setRegs]
    cases i with
    | zero =>
      have hn : n ∉ (List.range m).map (n + 1 + ·) := by simp; omega
      rw [Nat.add_zero n] at hfile ⊢
      rw [setRegs_sreg_of_not_mem _ _ hn, setS_sreg_same _ _ hfile, Nat.mul_zero, Nat.pow_zero, Nat.div_one]
    | succ i =>
      rw [show n + (i + 1) = n + 1 + i by omega, ih _ _ (by omega) (by omega), Nat.div_div_eq_div_mul, ← Nat.pow_add,
        Nat.mul_succ, Nat.add_comm]

/-! ### A block written -/

/-- R109: bit `j` of a block is bit `j` of the number written to it. -/
theorem blockBit_setBlock {t : Team} {n j : Nat} (v : Nat) (hl : Claims.legalLanes t) (hn : n + t.blockRegs ≤ 64)
    (hj : j < t.lanes) : Claims.blockBit (t.setBlock n v) n j = v.testBit j := by
  have hreg : j / 64 < t.blockRegs := by have := lanes_le_blockRegs hl; omega
  rw [Claims.blockBit, Team.setBlock, setRegs_sreg_of_lt _ _ hreg (by omega), BitVec.getLsbD_ofNat,
    decide_eq_true (Nat.mod_lt j (by decide)), Bool.true_and, Nat.testBit_div_two_pow, Nat.mod_add_div,
    Nat.testBit_mod_two_pow, decide_eq_true hj, Bool.true_and]

/-- R115: with 32 lanes the upper half of the register becomes 0. -/
theorem setBlock_upper_zero {t : Team} {n : Nat} (v : Nat) (hn : n + t.blockRegs ≤ 64) (hl : t.lanes = 32) :
    ((t.setBlock n v).sreg n).toNat < 2 ^ 32 := by
  have hreg : 0 < t.blockRegs := by unfold Team.blockRegs; omega
  have h := setRegs_sreg_of_lt (n := n) t (v % 2 ^ t.lanes) hreg (by omega)
  rw [Nat.add_zero, Nat.mul_zero, Nat.pow_zero, Nat.div_one] at h
  rw [Team.setBlock, h, hl, BitVec.toNat_ofNat]
  omega

/-- A block written and the instruction retired. -/
theorem setBlock_retire (t : Team) (n v : Nat) :
    t.Retired (t.setBlock n v).retire (Claims.blockRange t n) (t.pc + 4) := by
  have hout (r : Nat) (hr : r ∉ Claims.blockRange t n) : (t.setBlock n v).sreg r = t.sreg r :=
    setRegs_sreg_of_not_mem t _ hr
  obtain ⟨r, hr⟩ : ∃ r, t.setBlock n v = { t with s := r } := setRegs_frame t n _ _
  rw [hr] at hout ⊢
  rw [Team.retire, retireTo_eq]
  exact ⟨⟨rfl, hout⟩, rfl, rfl, rfl⟩

theorem reading_lanes (t : Team) (uses : List Nat) : (t.reading uses).lanes = t.lanes := by
  unfold Team.lanes
  rw [reading_eq]

/-- An instruction whose whole effect is a block written and its retirement. -/
theorem writesBlock_of_setBlock {i : Instr} {s : State} {k : Nat} {t : Team} {uses : List Nat} {d : BitVec 7} {x : Nat}
    {v : Nat → Bool} (he : exec i s = .next (s.setTeam k ((t.reading uses).setBlock d.toNat x).retire))
    (hl : Claims.legalLanes t) (hd : d.toNat < 64) (hb : Claims.blockFits t d)
    (hx : ∀ j, j < t.lanes → x.testBit j = v j) : Claims.WritesBlock i s k t uses d.toNat v := by
  have hlanes := reading_lanes t uses
  have hfile : d.toNat + (t.reading uses).blockRegs ≤ 64 := by
    rw [Claims.blockFits, Nat.mod_eq_of_lt hd] at hb
    rwa [Team.blockRegs, hlanes]
  have hrange : Claims.blockRange (t.reading uses) d.toNat = Claims.blockRange t d.toNat := by
    rw [Claims.blockRange, hlanes, Claims.blockRange]
  refine ⟨_, he, keepsRest_setTeam .., ?_, fun j hj => ?_, fun h => ?_⟩
  · rw [← hrange, ← reading_pc t uses]
    exact setBlock_retire ..
  · rw [Claims.blockBit, Team.retire, retireTo_sreg]
    rw [← hlanes] at hj
    exact (blockBit_setBlock x (by rwa [Claims.legalLanes, hlanes]) hfile hj).trans (hx j (by rwa [← hlanes]))
  · rw [Team.retire, retireTo_sreg]
    exact setBlock_upper_zero x hfile (by rwa [hlanes])

/-! ### The mask instructions -/

/-- R109: a mask instruction whose blocks lie within their files has its effect. -/
theorem maskOp_fits {i : Instr} {s : State} {k : Nat} {t : Team} {srcs dst one : List (BitVec 7)} {uses : List Nat}
    (g : Team → Team) (hu : ((srcs ++ dst).flatMap fun b => Claims.blockRange t b.toNat) ++ one.map (·.toNat) = uses)
    (hb : ∀ b ∈ srcs ++ dst, Claims.blockFits t b) (hi : s.CanIssueScalar k t uses) :
    maskOp i s srcs dst one g = .next (s.setTeam k (g (t.reading uses)).retire) := by
  subst hu
  have hany : (srcs ++ dst).any (fun b => t.blockBeyond b.toNat) = false := by
    simpa only [List.any_eq_false, blockBeyond_eq_true_iff, Classical.not_not] using hb
  rw [maskOp, issueChecked_eq _ hi (by rw [hany]; rfl), commit_eq]
  rfl

section
variable {i : Instr} {s : State} {k : Nat} {t : Team} {uses : List Nat} (hi : s.CanIssueScalar k t uses)
include hi

/-- R115, R116: a mask instruction whose destination is a block writes it, from its sources as they stood. -/
theorem maskOp_writesBlock {srcs : List (BitVec 7)} {d : BitVec 7} {x : Team → Nat} {v : Nat → Bool}
    (he : exec i s = maskOp i s srcs [d] [] fun t => t.setBlock d.toNat (x t))
    (hu : (srcs ++ [d]).flatMap (fun b => Claims.blockRange t b.toNat) = uses) (hx : x (t.reading uses) = x t)
    (hv : ∀ j, j < t.lanes → (x t).testBit j = v j) (hl : Claims.legalLanes t) (hd : d.toNat < 64)
    (hb : ∀ b ∈ srcs ++ [d], Claims.blockFits t b) : Claims.WritesBlock i s k t uses d.toNat v := by
  refine writesBlock_of_setBlock (x := x t) ?_ hl hd (hb d (by simp)) hv
  rw [he, maskOp_fits _ (by simpa using hu) hb hi, hx]

/-- R116: a mask instruction whose destination is one register writes it. -/
theorem maskOp_writesScalar {a d : BitVec 7} {x : Team → W64} {v : W64}
    (he : exec i s = maskOp i s [a] [] [d] fun t => t.setS d.toNat (x t))
    (hu : Claims.blockRange t a.toNat ++ [d.toNat] = uses) (hx : x (t.reading uses) = v)
    (ha : Claims.blockFits t a) : Claims.WritesScalar i s k t uses d.toNat v := by
  refine writesScalar_of_setS ?_
  rw [he, maskOp_fits _ (by simpa using hu) (by simpa using ha) hi, hx]

end

/-- R115: MANDN's bits, as the model computes them on whole blocks. -/
theorem testBit_andNot (x y j : Nat) : (x ^^^ (x &&& y)).testBit j = (x.testBit j && !y.testBit j) := by
  rw [Nat.testBit_xor, Nat.testBit_and]
  cases x.testBit j <;> simp

/-- R115: an instruction of MALU writes its combination of two blocks. -/
theorem maskAlu_writesBlock {i : Instr} {f : S3} {s : State} {k : Nat} {t : Team} {op : Nat → Nat → Nat}
    {g : Bool → Bool → Bool} (he : exec i s = maskAlu i f s op)
    (hg : ∀ x y j, (op x y).testBit j = g (x.testBit j) (y.testBit j)) (hl : Claims.legalLanes t) (hd : f.d.toNat < 64)
    (hb : ∀ b ∈ [f.a, f.b] ++ [f.d], Claims.blockFits t b)
    (hi : s.CanIssueScalar k t
      (Claims.blockRange t f.a.toNat ++ Claims.blockRange t f.b.toNat ++ Claims.blockRange t f.d.toNat)) :
    Claims.WritesBlock i s k t
      (Claims.blockRange t f.a.toNat ++ Claims.blockRange t f.b.toNat ++ Claims.blockRange t f.d.toNat) f.d.toNat
      (fun j => g (Claims.maskBit t f.a j) (Claims.maskBit t f.b j)) := by
  refine maskOp_writesBlock hi he (by simp) (by simp only [reading_block]) (fun j hj => ?_) hl hd hb
  rw [hg, testBit_block hl _ hj, testBit_block hl _ hj]

/-- R115: MAND, MANDN, MOR and MXOR. -/
theorem maskBlockCombination : Claims.MaskBlockCombination := by
  intro e he f s k t hl hd ha hb hfd hi
  have hfits : ∀ b ∈ [f.a, f.b] ++ [f.d], Claims.blockFits t b := by simp [ha, hb, hfd]
  revert e
  simp only [Claims.maskAluResults, List.forall_mem_cons, List.not_mem_nil, false_implies, implies_true, and_true]
  exact ⟨maskAlu_writesBlock (exec_mand f s) (fun x y j => Nat.testBit_and x y j) hl hd hfits hi,
    maskAlu_writesBlock (g := fun x y => x && !y) (exec_mandn f s) testBit_andNot hl hd hfits hi,
    maskAlu_writesBlock (exec_mor f s) (fun x y j => Nat.testBit_or x y j) hl hd hfits hi,
    maskAlu_writesBlock (exec_mxor f s) (fun x y j => Nat.testBit_xor x y j) hl hd hfits hi⟩

/-- R116: the bits of an inverted block. -/
theorem testBit_notBlock (t : Team) (n : Nat) {j : Nat} (hj : j < t.lanes) :
    (2 ^ t.lanes - 1 - t.block n).testBit j = !(t.block n).testBit j := by
  have hlt : t.block n < 2 ^ t.lanes := Nat.mod_lt _ (Nat.two_pow_pos _)
  rw [Nat.sub_sub, Nat.add_comm, Nat.testBit_two_pow_sub_succ hlt, decide_eq_true hj, Bool.true_and]

/-- R116: MPOPC counts mask bits. -/
theorem popCount_block {t : Team} (hl : Claims.legalLanes t) (f : BitVec 7) :
    popCount t.lanes (t.block f.toNat) = (List.range t.lanes).countP (Claims.maskBit t f) := by
  rw [popCount_eq_countP]
  exact List.countP_congr fun j hj => by rw [testBit_block hl f (List.mem_range.1 hj)]

/-- R116: MFFS names the lowest set mask bit. -/
theorem firstSet_block {t : Team} (hl : Claims.legalLanes t) (f : BitVec 7) :
    (if t.block f.toNat = 0 then -1 else BitVec.ofNat 64 (trailZeros t.lanes (t.block f.toNat))) =
      ((List.range t.lanes).find? (Claims.maskBit t f)).elim 0xFFFFFFFFFFFFFFFF#64 (BitVec.ofNat 64) := by
  have hbit {j : Nat} (hj : j < t.lanes) := testBit_block hl f hj
  cases h : (List.range t.lanes).find? (Claims.maskBit t f) with
  | none =>
    rw [List.find?_range_eq_none] at h
    have hzero : t.block f.toNat = 0 := by
      refine Nat.eq_of_testBit_eq fun j => ?_
      rw [Nat.zero_testBit]
      by_cases hj : j < t.lanes
      · rw [hbit hj]
        simpa using h j hj
      · simp [Team.block, Nat.testBit_mod_two_pow, hj]
    rw [if_pos hzero]
    rfl
  | some n =>
    obtain ⟨hset, hmem, hbelow⟩ := List.find?_range_eq_some.1 h
    have hn : n < t.lanes := List.mem_range.1 hmem
    rw [← hbit hn] at hset
    have hfind : (List.range t.lanes).find? ((t.block f.toNat).testBit ·) = some n := by
      refine List.find?_range_eq_some.2 ⟨hset, hmem, fun j hj => ?_⟩
      rw [hbit (Nat.lt_trans hj hn)]
      exact hbelow j hj
    have hne : t.block f.toNat ≠ 0 := fun h0 => by
      rw [h0, Nat.zero_testBit] at hset
      cases hset
    rw [if_neg hne, trailZeros, hfind]
    rfl

/-- R116: MNOT, MCPY, MSET, MCLR, MPOPC and MFFS. -/
theorem maskFunctionResults : Claims.MaskFunctionResults := by
  intro f s k t hl hd
  refine ⟨fun ha hfd hi => ⟨?_, ?_⟩, fun hfd hi => ⟨?_, ?_⟩, fun ha hi => ⟨?_, ?_⟩⟩
  · refine maskOp_writesBlock hi (exec_mnot f s) (by simp) (by rw [reading_block, reading_lanes]) (fun j hj => ?_) hl hd
      (by simp [ha, hfd])
    rw [testBit_notBlock t _ hj, testBit_block hl _ hj]
  · exact maskOp_writesBlock hi (exec_mcpy f s) (by simp) (reading_block ..) (fun j hj => testBit_block hl _ hj) hl hd
      (by simp [ha, hfd])
  · refine maskOp_writesBlock hi (exec_mset f s) (by simp) (by rw [reading_lanes]) (fun j hj => ?_) hl hd
      (by simp [hfd])
    rw [Nat.testBit_two_pow_sub_one, decide_eq_true hj]
  · exact maskOp_writesBlock hi (exec_mclr f s) (by simp) rfl (fun j _ => Nat.zero_testBit j) hl hd (by simp [hfd])
  · refine maskOp_writesScalar hi (exec_mpopc f s) rfl ?_ ha
    rw [reading_lanes, reading_block, popCount_block hl]
  · refine maskOp_writesScalar hi (exec_mffs f s) rfl ?_ ha
    rw [reading_lanes, reading_block, firstSet_block hl]
    cases (List.range t.lanes).find? (Claims.maskBit t f.a) <;> rfl

/-- Settles O5: MALU combines its blocks bit by bit, and MFN writes a block or a register. -/
theorem maskInstructions : Obligations.MaskInstructions := ⟨maskBlockCombination, maskFunctionResults⟩

end Sys2Proof.Machine
end

section
/-! SUPPORT. Jumps to a register (spec/04 R118), MODE, NOP and YIELD (R121, R123, R124), and reads of system registers
(R122, spec/11 R247, R248): O8, O27, O55 and O25. -/

namespace Sys2Proof.Machine

/-! ### Jumps -/

/-- R118: the traps of a jump, in their order, and its effect on a good target; the target is read before the link is
written. -/
theorem jump_eq {f : FS} {s : State} {k : Nat} {t : Team} {link : Bool} {uses : List Nat}
    (hu : (if link then [f.d.toNat, f.a.toNat] else [f.a.toNat]) = uses) (h : s.CanIssueScalar k t uses) :
    jump f s link =
      if (t.src f.a).toNat / 2 ^ 48 ≠ 0 then .next (s.raise k (t.at 0x05 (t.src f.a)))
      else if (t.src f.a).toNat % 4 ≠ 0 then .next (s.raise k (t.at 0x03 (t.src f.a)))
      else .next (s.setTeam k ((if link then (t.reading uses).setS f.d.toNat ((t.pc + 4).setWidth 64)
        else t.reading uses).retireTo ((t.src f.a).setWidth 48))) := by
  subst hu
  rw [jump, issueScalar_eq _ h]
  simp only [reading_src, reading_pc, Team.at, commit_eq, bne_iff_ne]

/-- R118: JMPR and RET go to a good target. -/
theorem jump_goesTo {i : Instr} {f : FS} {s : State} {k : Nat} {t : Team} (he : exec i s = jump f s false)
    (hhigh : (t.src f.a).toNat < 2 ^ 48) (halign : (t.src f.a).toNat % 4 = 0) (h : s.CanIssueScalar k t [f.a.toNat]) :
    Claims.GoesTo i s k t [f.a.toNat] [] ((t.src f.a).setWidth 48) none := by
  refine goesTo_of_retireTo ?_
  rw [he, jump_eq rfl h, if_neg (by omega), if_neg (by omega)]
  rfl

/-- R118: CALLR links and goes to a good target. -/
theorem callr_goesTo {f : FS} {s : State} {k : Nat} {t : Team} (hd : f.d.toNat < 64)
    (hhigh : (t.src f.a).toNat < 2 ^ 48) (halign : (t.src f.a).toNat % 4 = 0)
    (h : s.CanIssueScalar k t [f.d.toNat, f.a.toNat]) :
    Claims.GoesTo (.callr f) s k t [f.d.toNat, f.a.toNat] [f.d.toNat] ((t.src f.a).setWidth 48)
      (some (f.d.toNat, (t.pc + 4).setWidth 64)) := by
  have hexec : exec (.callr f) s = .next (s.setTeam k (((t.reading [f.d.toNat, f.a.toNat]).setS f.d.toNat
      ((t.pc + 4).setWidth 64)).retireTo ((t.src f.a).setWidth 48))) := by
    rw [exec_callr, execCallr, jump_eq rfl h, if_neg (by omega), if_neg (by omega)]
    rfl
  refine ⟨_, hexec, keepsRest_setTeam s k _, setS_retireTo _ _ _ _, ?_⟩
  rintro _ ⟨⟩
  rw [retireTo_sreg, setS_sreg_same _ _ hd]

/-- R118: a bad target traps, for its bits above 47 before its alignment. -/
theorem jump_traps {i : Instr} {f : FS} {s : State} {k : Nat} {t : Team} {link : Bool} {uses : List Nat}
    (he : exec i s = jump f s link) (hu : (if link then [f.d.toNat, f.a.toNat] else [f.a.toNat]) = uses)
    (h : s.CanIssueScalar k t uses) :
    (2 ^ 48 ≤ (t.src f.a).toNat → exec i s = .next (s.raise k { cause := 0x05, pc := t.pc, info := t.src f.a })) ∧
      ((t.src f.a).toNat < 2 ^ 48 → (t.src f.a).toNat % 4 ≠ 0 →
        exec i s = .next (s.raise k { cause := 0x03, pc := t.pc, info := t.src f.a })) := by
  rw [he, jump_eq hu h]
  refine ⟨fun hbig => if_pos (by omega), fun hsmall hmis => ?_⟩
  rw [if_neg (by omega), if_pos hmis]
  rfl

/-- Settles O8: the three jumps, on good targets and on bad ones. -/
theorem registerJumps : Obligations.RegisterJumps := by
  refine ⟨fun f s k t hhigh halign => ⟨fun h => ⟨?_, ?_⟩, fun hd h => callr_goesTo hd hhigh halign h⟩, fun f s k t => ?_⟩
  · exact jump_goesTo (exec_jmpr f s) hhigh halign h
  · exact jump_goesTo (exec_ret f s) hhigh halign h
  · simp only [List.forall_mem_cons, List.not_mem_nil, false_implies, implies_true, and_true]
    exact ⟨jump_traps (exec_jmpr f s) rfl, jump_traps (exec_ret f s) rfl, jump_traps (exec_callr f s) rfl⟩

/-! ### NOP, YIELD and MODE -/

/-- An instruction whose whole effect is the team `u`, retired. -/
theorem goesOn_of_retire {i : Instr} {s : State} {k : Nat} {u : Team} (h : exec i s = .next (s.setTeam k u.retire)) :
    Claims.GoesOn i s k u :=
  ⟨_, h, keepsRest_setTeam s k _, retireTo_Retired u _⟩

/-- R123: NOP retires. -/
theorem nop_goesOn (f : SY) {s : State} {k : Nat} {t : Team} (h : s.CanIssueScalar k t []) :
    Claims.GoesOn (.nop f) s k t :=
  goesOn_of_retire ((exec_nop f s).trans (issueScalar_eq _ h))

/-- R124: YIELD retires and notes when the core's other teams are to be offered a slot. -/
theorem yield_goesOn (f : SY) {s : State} {k : Nat} {t : Team} (h : s.CanIssueScalar k t []) :
    Claims.GoesOn (.yield f) s k { t with yielded := some s.cycle, offered := [] } := by
  refine ⟨_, (exec_yield f s).trans (issueScalar_eq _ h), keepsRest_setTeam s k _, ?_⟩
  rw [Team.retire, retireTo_eq]
  exact ⟨⟨rfl, fun _ _ => rfl⟩, rfl, rfl, rfl⟩

/-- R121: MODEI replaces MODE[15:0]. -/
theorem mode_lowHalf (m : W32) (i : BitVec 16) :
    (m &&& 0xFFFF0000) ||| i.setWidth 32 = m.extractLsb' 16 16 ++ i := by
  have hmask : (0xFFFF0000 : W32) = BitVec.allOnes 16 ++ 0#16 := rfl
  refine BitVec.eq_of_getLsbD_eq fun j hj => ?_
  rw [hmask, BitVec.getLsbD_or, BitVec.getLsbD_and, BitVec.getLsbD_append, BitVec.getLsbD_append,
    BitVec.getLsbD_allOnes, BitVec.getLsbD_setWidth, BitVec.getLsbD_extractLsb']
  by_cases h : j < 16
  · simp [h, hj]
  · have hj' : j - 16 < 16 := by omega
    simp [h, hj', show 16 + (j - 16) = j by omega, BitVec.getLsbD_of_ge i j (by omega)]

/-- R121: MODEW keeps 22 bits. -/
theorem mode_low22 (v : W64) : v.setWidth 32 &&& 0x3FFFFF#32 = (v.extractLsb' 0 22).setWidth 32 := by
  have hmask : 0x3FFFFF#32 = (BitVec.allOnes 22).setWidth 32 := rfl
  refine BitVec.eq_of_getLsbD_eq fun j hj => ?_
  rw [hmask, BitVec.getLsbD_and, BitVec.getLsbD_setWidth, BitVec.getLsbD_setWidth, BitVec.getLsbD_setWidth,
    BitVec.getLsbD_allOnes, BitVec.getLsbD_extractLsb']
  by_cases h : j < 22 <;> simp [h, hj]

/-- R121: MODEI. -/
theorem modei_goesOn (f : SYI) {s : State} {k : Nat} {t : Team} (h : s.CanIssueScalar k t []) :
    Claims.GoesOn (.modei f) s k { t with mode := t.mode.extractLsb' 16 16 ++ f.i } := by
  refine goesOn_of_retire ?_
  rw [exec_modei, execModei, issueScalar_eq _ h, commit_eq, mode_lowHalf]
  rfl

/-- R121: MODEW. -/
theorem modew_goesOn (f : SYS) {s : State} {k : Nat} {t : Team} (h : s.CanIssueScalar k t [f.s.toNat]) :
    Claims.GoesOn (.modew f) s k { t with mode := ((t.sreg f.s.toNat).extractLsb' 0 22).setWidth 32 } := by
  refine goesOn_of_retire ?_
  rw [exec_modew, execModew, issueScalar_eq _ h, commit_eq, reading_scalarField, ← mode_low22]
  rfl

/-- R121: MODER. -/
theorem moder_writesScalar (f : SYS) {s : State} {k : Nat} {t : Team} (h : s.CanIssueScalar k t [f.s.toNat]) :
    Claims.WritesScalar (.moder f) s k t [f.s.toNat] f.s.toNat (t.mode.setWidth 64) := by
  refine writesScalar_of_setS ?_
  rw [exec_moder, execModer, issueScalar_eq _ h, commit_eq, reading_scalarField]

/-- Settles O27, from the effect of each of the five. -/
theorem modeAndNop : Obligations.ModeAndNop := fun _ _ _ =>
  ⟨fun f h => nop_goesOn f h, fun f h => yield_goesOn f h, fun f h => modei_goesOn f h,
    fun f h => ⟨modew_goesOn f h, moder_writesScalar f h⟩⟩

/-- Settles O55: NOP's effect, its count in user mode, and its three words. -/
theorem nopOnlyRetires : Obligations.NopOnlyRetires := by
  refine ⟨fun f _ _ _ h => nop_goesOn f h, fun t hsys => ?_, ?_, ?_, ?_⟩
  · rw [Team.retiredNext, hsys]; rfl
  all_goals exact Laws.Coding.decode_of_encode rfl rfl

/-! ### SYSR -/

/-- R248: the numbers open to user mode. -/
theorem userReads_iff (n : Nat) : userReads n = true ↔ Claims.openToUser n := by
  simp [userReads, Claims.openToUser, or_assoc]

/-- SYSR of a register that the mode may read, where no DET event is recorded, writes its value (R122, R373). -/
theorem sysr_writesScalar {f : SYR} {s : State} {k : Nat} {t : Team} (hi : s.CanIssueScalar k t [f.s.toNat])
    (hp : t.sys = true ∨ userReads f.n.toNat = true) (hev : sysReadEvent f.n.toNat = none ∨ t.launch.det = false) :
    Claims.WritesScalar (.sysr f) s k t [f.s.toNat] f.s.toNat (s.sysRead t f.n.toNat) := by
  have hc : trapIf (!t.sys && !userReads f.n.toNat) (t.privilege (wordOf (.sysr f))) = none := by
    rcases hp with h | h <;> simp [trapIf, h]
  refine writesScalar_of_setS ?_
  rw [exec_sysr, execSysr, issueChecked_eq _ hi hc, reading_scalarField]
  cases h : sysReadEvent f.n.toNat with
  | none => rfl
  | some c =>
    have hdet : t.launch.det = false := hev.resolve_left (by simp [h])
    have hplain : t.detEvent c t.pc = t := detIf_plain t true c hdet
    dsimp only
    rw [hplain, commit_eq]

/-- R248: a register of the team reads as it stands, and its read is no DET event. -/
theorem sysRead_teamReads (s : State) (t : Team) :
    ∀ e ∈ Claims.teamReads t, s.sysRead t e.1 = e.2 ∧ sysReadEvent e.1 = none := by
  refine List.forall_mem_append.2 ⟨?_, fun e he => ?_⟩
  · simp only [List.forall_mem_cons, List.not_mem_nil, false_implies, implies_true, and_true]
    and_intros
    all_goals rfl
  · obtain ⟨i, hi, rfl⟩ := List.mem_map.1 he
    have hlt : i < 8 := List.mem_range.1 hi
    have hevent : ∀ j < 8, sysReadEvent (0x040 + j) = none := by decide
    exact ⟨State.sysRead_h s t hlt, hevent i hlt⟩

/-- R248: a register of the core reads as it stands, CYCLE outside DET. -/
theorem sysRead_coreReads (s : State) {t : Team} (hdet : t.launch.det = false) :
    ∀ e ∈ Claims.coreReads s t, s.sysRead t e.1 = e.2 := by
  simp only [Claims.coreReads, List.forall_mem_cons, List.not_mem_nil, false_implies, implies_true, and_true]
  have hcycle : s.sysRead t 0x012 = s.cycle := if_neg (by simp [hdet])
  exact ⟨rfl, rfl, rfl, rfl, rfl, rfl, rfl, rfl, rfl, rfl, hcycle⟩

/-- Settles O25, from the values of a team's and of a core's registers. -/
theorem systemRegisterReads : Obligations.SystemRegisterReads := by
  intro f s k t v hi hp hreg
  rw [← userReads_iff] at hp
  rcases hreg with hteam | ⟨hcore, hdet⟩
  · obtain ⟨hval, hevent⟩ : s.sysRead t f.n.toNat = v ∧ _ := sysRead_teamReads s t _ hteam
    rw [← hval]
    exact sysr_writesScalar hi hp (.inl hevent)
  · have hval : s.sysRead t f.n.toNat = v := sysRead_coreReads s hdet _ hcore
    rw [← hval]
    exact sysr_writesScalar hi hp (.inr hdet)

end Sys2Proof.Machine
end

section
/-! SUPPORT. The module right after reset (spec/11 R253, spec/16 R334, spec/18 R389 to R393, spec/22 R432, spec/23 R442, R452):
which field a register of window A shows, what the blocks hold at reset, and O58. -/

namespace Sys2Proof.Machine

/-! ### The fields that registers of window A show -/

/-- The reliability block above 0x1000: fabric ports, then routes. -/
theorem reliaRead_of_le (s : State) {o : Nat} (ho : 0x1000 ≤ o) :
    s.reliaRead o =
      if o < 0x1240 then (s.port ((o - 0x1000) / 16)).read (o % 16 == 8)
      else if 0x8000 ≤ o ∧ o < 0x10000 then s.route ((o - 0x8000) / 8) else 0 := by
  have hne : ∀ a < 0x1000, (o == a) = false := fun a ha => beq_eq_false_iff_ne.2 (by omega)
  have hbeacon : ¬ o < 0x28 := by omega
  have hfault : ¬ o < 0x128 := by omega
  have hfabric : ¬ o ≤ 0x428 := by omega
  simp [State.reliaRead, hne, hbeacon, hfault, hfabric, ho]

section
variable {s : State} (hb : s.security.bootFailed = false)
include hb

theorem regRead_eq_frontRegRead {o : Nat} (ho : o < 0x100000) : s.regRead o = s.frontRegRead o := by
  simp [State.regRead, hb, Nat.div_eq_of_lt ho, Nat.mod_eq_of_lt ho]

theorem regRead_eq_reliaRead {o : Nat} (ho : o < 0x100000) : s.regRead (0x100000 + o) = s.reliaRead o := by
  have hdiv : (0x100000 + o) / 0x100000 = 1 := by omega
  have hmod : (0x100000 + o) % 0x100000 = o := by omega
  simp [State.regRead, hb, hdiv, hmod]

/-- R334: the four registers of launch queue `q`. -/
theorem regRead_queue {q n : Nat} (hq : q < 64) (hn : n < 4) :
    s.regRead (0x10000 + 32 * q + 8 * n) = s.queueRead (s.queue (BitVec.ofNat 6 q)) n := by
  have hblock : (decide (0x10000 ≤ 0x10000 + 32 * q + 8 * n) && decide (0x10000 + 32 * q + 8 * n < 0x10800)) = true := by
    simp; omega
  have hnum : (0x10000 + 32 * q + 8 * n - 0x10000) / 32 = q := by omega
  have hreg : (0x10000 + 32 * q + 8 * n) % 32 / 8 = n := by omega
  rw [regRead_eq_frontRegRead hb (by omega), State.frontRegRead, if_pos hblock, hnum, hreg]

/-- R390: the ASID of launch queue `q`. -/
theorem regRead_queueAsid {q : Nat} (hq : q < 64) :
    s.regRead (0x20000 + 8 * q) = (s.queue (BitVec.ofNat 6 q)).asid.setWidth 64 := by
  have hother : ¬ (decide (0x10000 ≤ 0x20000 + 8 * q) && decide (0x20000 + 8 * q < 0x10800)) = true := by
    simp; omega
  have hblock : (decide (0x20000 ≤ 0x20000 + 8 * q) && decide (0x20000 + 8 * q < 0x20200)) = true := by
    simp; omega
  have hnum : (0x20000 + 8 * q - 0x20000) / 8 = q := by omega
  rw [regRead_eq_frontRegRead hb (by omega), State.frontRegRead, if_neg hother, if_pos hblock, hnum]

/-- R452: FPSTAT of port `p`. -/
theorem regRead_portStat {p : Nat} (hp : p < 36) : s.regRead (0x101000 + 16 * p) = (s.port p).fpstat := by
  have hnum : (0x1000 + 16 * p - 0x1000) / 16 = p := by omega
  have hreg : (0x1000 + 16 * p) % 16 = 0 := by omega
  rw [show 0x101000 + 16 * p = 0x100000 + (0x1000 + 16 * p) by omega, regRead_eq_reliaRead hb (by omega),
    reliaRead_of_le s (by omega), if_pos (by omega), hnum, hreg]
  rfl

/-- R452: FPTHR of port `p`. -/
theorem regRead_portThresholds {p : Nat} (hp : p < 36) :
    s.regRead (0x101008 + 16 * p) = BitVec.ofNat 64 ((s.port p).degt.toNat * 2 ^ 8 + (s.port p).warnt.toNat) := by
  have hnum : (0x1008 + 16 * p - 0x1000) / 16 = p := by omega
  have hreg : (0x1008 + 16 * p) % 16 = 8 := by omega
  rw [show 0x101008 + 16 * p = 0x100000 + (0x1008 + 16 * p) by omega, regRead_eq_reliaRead hb (by omega),
    reliaRead_of_le s (by omega), if_pos (by omega), hnum, hreg]
  rfl

/-- R442: the route to module `m`. -/
theorem regRead_route {m : Nat} (hm : m < 4096) : s.regRead (0x108000 + 8 * m) = s.route m := by
  have hnum : (0x8000 + 8 * m - 0x8000) / 8 = m := by omega
  rw [show 0x108000 + 8 * m = 0x100000 + (0x8000 + 8 * m) by omega, regRead_eq_reliaRead hb (by omega),
    reliaRead_of_le s (by omega), if_neg (by omega), if_pos (by omega), hnum]

end

/-! ### The blocks at reset -/

@[simp] theorem State.core_reset (n : Nat) : State.reset.core n = {} := rfl

@[simp] theorem State.cluster_reset (n : Nat) : State.reset.cluster n = {} := rfl

@[simp] theorem State.die_reset (n : Nat) : State.reset.die n = DieRegs.reset := rfl

@[simp] theorem State.queue_reset (q : BitVec 6) : State.reset.queue q = {} := by
  simp [State.queue, State.reset, Vector.getD, q.isLt]

@[simp] theorem State.port_reset (p : Nat) : State.reset.port p = {} := by
  by_cases h : p < 36 <;> simp [State.port, State.reset, Vector.getD, h]

@[simp] theorem State.route_reset (m : Nat) : State.reset.route m = 0 := rfl

/-- R355: C0, C1 and C2 of a coefficient register lie in fields of their own. -/
theorem coefReset_eq_sum : ∀ p < 8, coefReset p = BitVec.ofNat 64 (8 * p + 2 * p * 2 ^ 16 + p * 2 ^ 32) := by decide

/-- R355: the coefficient registers of a die. -/
theorem DieRegs.coef_reset : ∀ p < 8, DieRegs.reset.coef.getD p 0 = coefReset p := by decide

/-- R395: the quadrant rails of a die. -/
theorem DieRegs.rails_reset (q : Nat) : DieRegs.reset.rails.getD q {} = {} := by
  by_cases h : q < 4 <;> simp [DieRegs.reset, Vector.getD, h]

/-! ### Window A at reset -/

/-- R334, R390: BASE, the control word with LOGSLOTS 4 and MAXLVL 3, HEAD, TAIL and the ASID of each launch queue. -/
theorem queueRegisters_reset {q : Nat} (hq : q < 64) :
    State.reset.regRead (0x10000 + 32 * q) = 0 ∧ State.reset.regRead (0x10008 + 32 * q) = 0x40C ∧
      State.reset.regRead (0x10010 + 32 * q) = 0 ∧ State.reset.regRead (0x10018 + 32 * q) = 0 ∧
      State.reset.regRead (0x20000 + 8 * q) = 0 := by
  have hreg : ∀ n < 4, State.reset.regRead (0x10000 + 8 * n + 32 * q) = State.reset.queueRead {} n := fun n hn => by
    rw [Nat.add_right_comm, regRead_queue rfl hq hn, State.queue_reset]
  refine ⟨hreg 0 (by decide), hreg 1 (by decide), hreg 2 (by decide), hreg 3 (by decide), ?_⟩
  rw [regRead_queueAsid rfl hq, State.queue_reset]
  rfl

/-- R452: no lane of a port is up, and the thresholds are 16 and 40. -/
theorem portRegisters_reset {p : Nat} (hp : p < 36) :
    State.reset.regRead (0x101000 + 16 * p) = 0x20 ∧ State.reset.regRead (0x101008 + 16 * p) = 0x1028 := by
  rw [regRead_portStat rfl hp, regRead_portThresholds rfl hp, State.port_reset]
  exact ⟨rfl, rfl⟩

/-- R389, R393, R432, R442: the registers that stand alone, with LOGN 8 of the two rings, PERIOD 2000 and JLOG 12. -/
theorem singleRegisters_reset :
    ∀ e ∈ ([(0x100000, 0), (0x100008, 0x10), (0x100010, 0), (0x100018, 0), (0x100020, 0), (0x100100, 0), (0x100108, 0x10),
      (0x100200, 0), (0x100208, 0), (0x100210, 0), (0x100218, 0), (0x100400, 0), (0x100408, 2000), (0x100410, 0),
      (0x100418, 0), (0x100420, 0), (0x100428, 0), (0x200000, 0), (0x200008, 12)] : List (Nat × W64)),
      State.reset.regRead e.1 = e.2 := by
  decide

/-- Settles O58: each conjunct from what its block holds at reset. -/
theorem resetValues : Obligations.ResetValues := by
  refine ⟨rfl, rfl, rfl, rfl, rfl, fun n => ?_, fun n => ?_, fun n => ?_, fun q hq => queueRegisters_reset hq,
    singleRegisters_reset, fun p hp => portRegisters_reset hp, fun m hm => ?_⟩
  · rw [State.core_reset]
    and_intros
    all_goals rfl
  · rw [State.cluster_reset]
    and_intros
    all_goals rfl
  · rw [State.die_reset]
    refine ⟨rfl, rfl, rfl, rfl, rfl, rfl, rfl, fun p hp => ?_, fun q _ => ?_⟩
    · rw [DieRegs.coef_reset p hp, coefReset_eq_sum p hp]
    · rw [DieRegs.rails_reset]
      and_intros
      all_goals rfl
  · rw [regRead_route rfl hm, State.route_reset]

end Sys2Proof.Machine
end
